-- ==== Sys2Proof/Word.lean ====
section
/-! DEFINITION. The words of the FH62: octets, piece numbers and belt positions.

Only what the manual shifts, wraps or lays out in octets is a bit vector; counts, values in vu and sizes are natural numbers. -/

namespace Sys2Proof

/-- One octet of a frame, of a message or of the indicium record (spec/00_scope.md, "Octet order"). -/
abbrev Byte := BitVec 8

/-- A 16-bit register: the frame check (R3) and the check code (R145). -/
abbrev Word16 := BitVec 16

/-- A 32-bit field of a message or a command: a serial (R146), an amount (R131). -/
abbrev Word32 := BitVec 32

/-- A piece number, 0 to 65 535, wrapping (spec/00_scope.md, "Comparing piece numbers"). -/
abbrev PieceNo := BitVec 16

/-- A transport position, 0 to 16 777 215, wrapping (R52). -/
abbrev Position := BitVec 24

end Sys2Proof
end

