-- ==== Sys2Proof/Syntax.lean ====
section
/-! DEFINITION. The commands of the FH62: one constructor of `Instr` for each row of spec/opcode_table.json, with the operands
the rules give it. The table gives no row any bits (log 24). -/

namespace Sys2Proof

/-- A symbol on the line loop or on the imprint port (R1, R146): the four control symbols, or a data octet. -/
inductive Symbol where
  | idle
  | opener
  | closer
  | cut
  | octet (b : Byte)
  deriving DecidableEq, Repr

/-- What abandons a frame or a message in reception (R2, R148). -/
inductive AbandonCause where
  /-- CUT arrives. -/
  | cut
  /-- IDLE arrives. -/
  | idle
  /-- A second OPEN arrives, which also begins reception anew. -/
  | secondOpen
  /-- One data octet too many arrives, and the rest is ignored. -/
  | tooLong
  deriving DecidableEq, Repr

/-- What a frame row carries beside its kind: the header octets the sender chose and the body octets. The length octet and the
check follow from them (R3, R16). -/
structure LineFrame where
  origin : Byte
  hop : Byte
  body : List Byte
  deriving DecidableEq, Repr

/-- The configuration record: the twelve fields of CONFIGURE, in the order of R170. -/
structure Configuration where
  station : Nat
  distance : Nat
  cutoffLead : Nat
  commitLead : Nat
  resultWindow : Nat
  takeLimit : Nat
  holdLevel : Nat
  resumeLevel : Nat
  resolution : Nat
  seed : Nat
  takeFloor : Nat
  warnLevel : Nat
  deriving DecidableEq, Repr

/-- Length, height and thickness maxima (R82). -/
structure SizeLimit where
  length : Nat
  height : Nat
  thickness : Nat
  deriving DecidableEq, Repr

/-- The header of a rate bank (R82). -/
structure BankHeader where
  generation : Nat
  valueCeiling : Nat
  settleMargin : Nat
  divisor : Nat
  defaultZone : Nat
  letterMax : SizeLimit
  largeLetterMax : SizeLimit
  minLength : Nat
  minHeight : Nat
  aspectLow : Nat
  aspectHigh : Nat
  serviceLimit : Nat
  stepLimit : Nat
  zoneCount : Nat
  deriving DecidableEq, Repr

/-- A service descriptor (R82). The accepted shapes are a set drawn from LETTER, LARGE_LETTER and PARCEL. The present, zoned and
accepted-shape fields hold no value outside their sets, so the range test of R86 finds none there (DESIGN CHOICE, log 27). -/
structure ServiceEntry where
  present : Bool
  acceptsLetter : Bool
  acceptsLargeLetter : Bool
  acceptsParcel : Bool
  zoned : Bool
  minLevel : Nat
  maxDiscountLevel : Nat
  firstStep : Nat
  stepCount : Nat
  minCharge : Nat
  nonMachinable : Nat
  thicknessThreshold : Nat
  thicknessSurcharge : Nat
  perMille0 : Nat
  perMille1 : Nat
  perMille2 : Nat
  perMille3 : Nat
  deriving DecidableEq, Repr

/-- The grain of a step entry (R84). It holds no value but these two, so the range test of R86 finds none outside them (DESIGN
CHOICE, log 27). -/
inductive Grain where
  | fine
  | coarse
  deriving DecidableEq, Repr

/-- A step entry (R82, R84). -/
structure StepEntry where
  limit : Nat
  grain : Grain
  basePrice : Nat
  zoneAdd : Nat
  deriving DecidableEq, Repr

/-- A zone-map entry (R82). -/
structure ZoneEntry where
  count : Nat
  digits : List Nat
  zone : Nat
  deriving DecidableEq, Repr

/-- The part and the content that LOAD_BANK_BLOCK carries (R85). `other` stands for a part code that is none of the four
(R86). -/
inductive BankPart where
  | header (h : BankHeader)
  | service (e : ServiceEntry)
  | step (e : StepEntry)
  | zone (e : ZoneEntry)
  | other (code : Nat)
  deriving DecidableEq, Repr

/-- The condition QUIESCE carries (R46). `other` stands for a condition that is none of the three. -/
inductive QuiesceArg where
  | now
  | atJobClose (job : Nat)
  | atFundsLow
  | other (code : Nat)
  deriving DecidableEq, Repr

/-- The type of a service port command (R168). -/
inductive CommandType where
  | setup
  | operation
  | read
  | store
  deriving DecidableEq, Repr

/-- What IMPRINT_MESSAGE_DISCARDED brings from the print engine (R148): a reception abandoned, a completed message that is not
good, or one symbol of a message that has not ended (log 6). -/
inductive EngineInput where
  | abandoned (why : AbandonCause)
  | completed (octets : List Byte)
  | symbol (sym : Symbol)
  deriving DecidableEq, Repr

/-- The commands: one constructor for each row of the table of operations and events. -/
inductive Instr where
  /-- POWER_UP (R15, R174). -/
  | powerUp
  /-- RESET_PIN (R174). -/
  | resetPin
  /-- RESET_RELAY_SETTLED (R15). -/
  | resetRelaySettled
  /-- FRAME_ABANDONED (R2). -/
  | frameAbandoned (why : AbandonCause)
  /-- BAD_FRAME (R3): the octets received between OPEN and CLOSE. -/
  | badFrame (octets : List Byte)
  /-- UNKNOWN_KIND_FRAME (R5). -/
  | unknownKindFrame (kind : Byte) (f : LineFrame)
  /-- PIECE_NOTICE (R34): an original notice. -/
  | pieceNotice (f : LineFrame)
  /-- RELEASED_NOTICE (R38): a notice sent as a release. -/
  | releasedNotice (f : LineFrame)
  /-- MEASURE_REPORT (R59). -/
  | measureReport (f : LineFrame)
  /-- ADDRESS_REPORT (R60). -/
  | addressReport (f : LineFrame)
  /-- JOB_OPEN (R30). -/
  | jobOpen (f : LineFrame)
  /-- JOB_CLOSE (R32). -/
  | jobClose (f : LineFrame)
  /-- RATE_SWITCH (R89). -/
  | rateSwitch (f : LineFrame)
  /-- FEED_HOLD (R24). -/
  | feedHold (f : LineFrame)
  /-- FEED_RESUME (R24). -/
  | feedResume (f : LineFrame)
  /-- FRANK_REPORT (R25). -/
  | frankReport (f : LineFrame)
  /-- VERIFY_REPORT (R159). -/
  | verifyReport (f : LineFrame)
  /-- FORWARD_FRAME_SENT (R6). -/
  | forwardFrameSent
  /-- OWN_FRAME_SENT (R9). -/
  | ownFrameSent
  /-- JOIN_SWITCH_START (R11). -/
  | joinSwitchStart
  /-- JOIN_SWITCH_COMPLETE (R11). -/
  | joinSwitchComplete
  /-- LEAVE_SWITCH_START (R13). -/
  | leaveSwitchStart
  /-- LEAVE_SWITCH_COMPLETE (R13). -/
  | leaveSwitchComplete
  /-- LOOP_LOST (R14). -/
  | loopLost
  /-- LOOP_RETURN (R14): the first symbol recognised after a loss. -/
  | loopReturn (sym : Symbol)
  /-- ENCODER_PULSE_FORWARD (R52). -/
  | encoderPulseForward
  /-- ENCODER_PULSE_REVERSE (R52). -/
  | encoderPulseReverse
  /-- CUTOFF (R62) of the record of this piece. -/
  | cutoff (piece : PieceNo)
  /-- COMMIT_CHECKPOINT (R69) of the record of this piece. -/
  | commitCheckpoint (piece : PieceNo)
  /-- PRINT_CHECKPOINT (R149) of the record of this piece. -/
  | printCheckpoint (piece : PieceNo)
  /-- RESULT_DEADLINE (R154) of the record of this piece. -/
  | resultDeadline (piece : PieceNo)
  /-- RATING_START (R63). -/
  | ratingStart
  /-- RATING_RESULT (R65). -/
  | ratingResult
  /-- COMMIT_WRITE_COMPLETE (R127). -/
  | commitWriteComplete
  /-- CLOSE_WRITE_COMPLETE (R128). -/
  | closeWriteComplete
  /-- SPOIL_SLOT_WRITE_COMPLETE (R129). -/
  | spoilSlotWriteComplete
  /-- SPOIL_VERDICT_WRITE_COMPLETE (R130). -/
  | spoilVerdictWriteComplete
  /-- SPOIL_UNMATCHED_WRITE_COMPLETE (R130). -/
  | spoilUnmatchedWriteComplete
  /-- CREDIT_WRITE_COMPLETE (R132). -/
  | creditWriteComplete
  /-- DRAIN_WRITE_COMPLETE (R133). -/
  | drainWriteComplete
  /-- STORE_WRITE_FAILED (R134). -/
  | storeWriteFailed
  /-- STARTUP_READ_COMPLETE (R137), with its outcome. -/
  | startupReadComplete (good : Bool)
  /-- IMPRINT_DONE (R150) for a serial. -/
  | imprintDone (serial : Word32)
  /-- IMPRINT_FAILED (R152) for a serial, with the engine's own reason. -/
  | imprintFailed (serial : Word32) (reason : Byte)
  /-- IMPRINT_MESSAGE_DISCARDED (R148). -/
  | imprintMessageDiscarded (input : EngineInput)
  /-- IMPRINT_MESSAGE_SENT (R147). -/
  | imprintMessageSent
  /-- CONFIGURE (R170). -/
  | configure (record : Configuration)
  /-- LOAD_BANK_BLOCK (R85). -/
  | loadBankBlock (slot : Nat) (index : Nat) (part : BankPart)
  /-- COMMIT_BANK (R87). -/
  | commitBank (slot : Nat)
  /-- JOIN (R11). -/
  | join
  /-- LEAVE (R13). -/
  | leave
  /-- QUIESCE (R46). -/
  | quiesce (condition : QuiesceArg)
  /-- RESUME (R50). -/
  | resume
  /-- HEAD_RESET (R174). -/
  | headReset
  /-- READ_FUNDS (R171). -/
  | readFunds
  /-- READ_FUNDS_NEXT (R171). -/
  | readFundsNext
  /-- READ_PIECE (R78). -/
  | readPiece (index : Nat)
  /-- READ_BANK_STATE (R96). -/
  | readBankState
  /-- READ_EVENTS (R173). -/
  | readEvents
  /-- CLEAR_EVENTS (R173). -/
  | clearEvents
  /-- READ_SPOIL_OLDEST (R165). -/
  | readSpoilOldest
  /-- READ_LINE_COUNTS (R4, R33). -/
  | readLineCounts
  /-- READ_LAST_FAULT (R68). -/
  | readLastFault
  /-- CREDIT (R131). -/
  | credit (amount : Word32)
  /-- DRAIN_SPOIL (R133). -/
  | drainSpoil (sequence : Nat)
  /-- UNKNOWN_COMMAND (R167). -/
  | unknownCommand (code : Nat)
  /-- SHORT_TRANSFER (R167) of a command of this type. -/
  | shortTransfer (type : CommandType)
  /-- IDLE_RECEIVED (R2): one symbol received on loop-in (log 4). -/
  | idleReceived (sym : Symbol)
  /-- POWER_LOSS (R136). -/
  | powerLoss
  deriving DecidableEq, Repr

end Sys2Proof
end

