-- ==== Sys2Proof/Machine/State.lean ====
section
/-! DEFINITION. The state of the FH62, block by block (spec/00_scope.md, "Block diagram"), as plain data, and its reset value. -/

namespace Sys2Proof.Machine

/-! ## The Loop Port (chapter 1) -/

/-- The position the bypass relay is driven to (R12). -/
inductive Relay where
  /-- Loop-in straight to loop-out. -/
  | bypass
  /-- The loop is carried through the controller. -/
  | through
  deriving DecidableEq, Repr

/-- What started the relay switching period in progress (R11, R13, R15). -/
inductive SwitchCause where
  | join
  | leave
  | reset
  deriving DecidableEq, Repr

/-- The attach state (section 1.9). -/
inductive Attach where
  | bypass
  | joining
  | attached
  | leaving
  deriving DecidableEq, Repr

/-- A receiver with its receive buffer (R2, R148). -/
inductive Receiver where
  /-- No frame in reception. -/
  | outside
  /-- A frame in reception, with the octets received since its OPEN. -/
  | receiving (buffer : List Byte)
  /-- The rest of an over-long frame is being ignored. -/
  | ignoring
  deriving DecidableEq, Repr

/-- A line frame without its length and check octets, which follow from the rest (R3, R16). -/
structure Frame where
  kind : Byte
  origin : Byte
  hop : Byte
  body : List Byte
  deriving DecidableEq, Repr

/-- An entry of the forward queue. A held entry waits for the Intake Unit's answer (R7). -/
structure ForwardEntry where
  frame : Frame
  held : Bool
  deriving DecidableEq, Repr

/-- What the transmitter is doing (R10). -/
inductive Transmitter where
  | idle
  | sendingForward
  | sendingOwn
  deriving DecidableEq, Repr

/-- The state of the Loop Port (table of R15). -/
structure LoopPort where
  relay : Relay
  switching : Option SwitchCause
  attach : Attach
  receiver : Receiver
  idleRun : Nat
  lost : Bool
  forward : List ForwardEntry
  own : List Frame
  transmitter : Transmitter
  badFrames : Nat
  deriving DecidableEq, Repr

/-! ## The Intake Unit (chapter 3) -/

/-- The head mode (section 3.7, R169). -/
inductive HeadMode where
  | setup
  | standby
  | running
  | quiescing
  | quiet
  | halted
  deriving DecidableEq, Repr

/-- The six parameters of a job (R22, R29). -/
structure JobParams where
  defaultClass : Nat
  defaultLevel : Nat
  ceilingWeight : Nat
  defaultZone : Nat
  dateCode : Nat
  deriving DecidableEq, Repr

/-- A job record (R29). -/
structure JobRecord where
  number : Nat
  params : JobParams
  isOpen : Bool
  deriving DecidableEq, Repr

/-- An entry of the passing list (R37). -/
structure PassingEntry where
  piece : PieceNo
  job : Nat
  reference : Position
  deriving DecidableEq, Repr

/-- The quiesce condition held (R46). -/
inductive QuiesceCondition where
  | none
  | atJobClose (job : Nat)
  | atFundsLow
  deriving DecidableEq, Repr

/-- The state of the Intake Unit (table at the head of chapter 3). -/
structure Intake where
  jobs : List JobRecord
  closing : List Nat
  passing : List PassingEntry
  feedHold : Bool
  quiesce : QuiesceCondition
  duplicates : Nat
  deriving DecidableEq, Repr

/-! ## The Rate Store (chapter 5) -/

/-- The two bank slots, 0 and 1. -/
inductive SlotNo where
  | zero
  | one
  deriving DecidableEq, Repr

/-- The five bank states (R80). -/
inductive BankState where
  | empty
  | loading
  | ready
  | active
  | retiring
  deriving DecidableEq, Repr

/-- The content of a bank (R82): the header, the descriptors by index 0 to 31 (index 0 is the null descriptor), the step entries
by index 0 to 127, the zone-map entries by index 0 to 255. -/
structure Bank where
  header : BankHeader
  services : List ServiceEntry
  steps : List StepEntry
  zones : List ZoneEntry
  deriving DecidableEq, Repr

/-- A bank slot (R80). `generation` is the generation of the header as last committed (R88, R96). -/
structure BankSlot where
  state : BankState
  content : Option Bank
  generation : Nat
  bound : Nat
  deriving DecidableEq, Repr

/-- A switch point (R89). -/
structure SwitchPoint where
  first : PieceNo
  generation : Nat
  deriving DecidableEq, Repr

/-- A bank binding: the slot and that bank's generation (R55). -/
structure Binding where
  slot : SlotNo
  generation : Nat
  deriving DecidableEq, Repr

/-- The state of the Rate Store (table at the head of chapter 5). -/
structure RateStore where
  slot0 : BankSlot
  slot1 : BankSlot
  switchPoint : Option SwitchPoint
  notReady : Bool
  deriving DecidableEq, Repr

/-! ## The Piece Tracker (chapter 4) -/

/-- Weight quality (R18, R20). -/
inductive WeightQuality where
  | settled
  | unsettled
  | failed
  deriving DecidableEq, Repr

/-- A measure part (R20, R55). -/
structure MeasurePart where
  weight : Nat
  quality : WeightQuality
  length : Nat
  height : Nat
  thickness : Nat
  dimsValid : Bool
  deriving DecidableEq, Repr

/-- An address part (R21, R55). The digit count is the length of the digits. -/
structure AddressPart where
  serviceClass : Nat
  level : Nat
  digits : List Nat
  deriving DecidableEq, Repr

/-- The shapes of a rated piece (R104). -/
inductive Shape where
  | undersize
  | letter
  | largeLetter
  | parcel
  deriving DecidableEq, Repr

/-- A rating result (R55, R118). -/
structure RatingResult where
  postage : Nat
  shape : Shape
  zone : Nat
  stepIndex : Nat
  base : Nat
  surcharges : Nat
  discount : Nat
  deriving DecidableEq, Repr

/-- The rating faults, in the order of their codes (R100; `RatingFault.code` gives the codes). -/
inductive RatingFault where
  | nullClass
  | classRange
  | classAbsent
  | levelIneligible
  | shapeRefused
  | overweight
  | valueOver
  | fundsShort
  deriving DecidableEq, Repr

/-- The condition flags of a record, a set drawn from seven (R56). -/
structure ConditionFlags where
  weightDefaulted : Bool
  dimsDefaulted : Bool
  addressDefaulted : Bool
  weightMargin : Bool
  lateData : Bool
  dupReport : Bool
  releaseTaken : Bool
  deriving DecidableEq, Repr

/-- The seven states of a piece record (R57). -/
inductive PieceState where
  | taken
  | ready
  | rating
  | rated
  | committing
  | committed
  | finishing
  deriving DecidableEq, Repr

/-- A piece record (R55). `tag` names the record itself, since a piece number can come back (R97; log 25). -/
structure PieceRecord where
  tag : Nat
  piece : PieceNo
  job : Nat
  reference : Position
  binding : Binding
  measure : Option MeasurePart
  address : Option AddressPart
  rating : Option RatingResult
  serial : Option Nat
  state : PieceState
  flags : ConditionFlags
  deriving DecidableEq, Repr

/-- The last-fault record (R68). Its fault stands for the code 1 to 8 of R100, which `LastFault.view` spells out. -/
structure LastFault where
  piece : PieceNo
  fault : RatingFault
  serviceClass : Nat
  deriving DecidableEq, Repr

/-- The state of the Piece Tracker (table at the head of chapter 4). The rating queue is a view of `pieces` (R63). `nextTag` is
the model's own (log 25). -/
structure Tracker where
  position : Position
  pieces : List PieceRecord
  lastFault : Option LastFault
  nextTag : Nat
  deriving DecidableEq, Repr

/-! ## The Rating Engine (chapter 6) -/

/-- A weight reading (R98). -/
structure WeightReading where
  weight : Nat
  quality : WeightQuality
  deriving DecidableEq, Repr

/-- The dimensions of a piece (R98). -/
structure Dimensions where
  length : Nat
  height : Nat
  thickness : Nat
  deriving DecidableEq, Repr

/-- The inputs copied at the start of a rating (R98), the bound bank's content with them. -/
structure RatingInputs where
  serviceClass : Nat
  level : Nat
  hasAddress : Bool
  destination : List Nat
  reading : Option WeightReading
  dims : Option Dimensions
  ceilingWeight : Nat
  jobZone : Nat
  binding : Binding
  bank : Bank
  deriving DecidableEq, Repr

/-- The rating in flight (R97): the record it was started for, by its tag, and the inputs. -/
structure RatingInFlight where
  tag : Nat
  inputs : RatingInputs
  deriving DecidableEq, Repr

/-! ## The Funds Store (chapter 7) -/

/-- An occupied open-imprint slot (R120). -/
structure OpenImprint where
  serial : Nat
  piece : PieceNo
  value : Nat
  job : Nat
  dateCode : Nat
  deriving DecidableEq, Repr

/-- The spoil reasons (R121). -/
inductive SpoilReason where
  | printFailed
  | noResult
  | lateCommit
  | unconfirmed
  | unreadable
  | valueMismatch
  | notSeen
  | verifyUnmatched
  deriving DecidableEq, Repr

/-- A spoil record (R121). -/
structure SpoilRecord where
  sequence : Nat
  reason : SpoilReason
  piece : PieceNo
  serial : Option Nat
  value : Option Nat
  job : Option Nat
  dateCode : Option Nat
  deriving DecidableEq, Repr

/-- The non-volatile content of the Funds Store (table at the head of chapter 7). -/
structure Store where
  dr : Nat
  ar : Nat
  ct : Nat
  pc : Nat
  credits : Nat
  open0 : Option OpenImprint
  open1 : Option OpenImprint
  spoils : List SpoilRecord
  sequence : Nat
  overflowCount : Nat
  overflowValue : Nat
  deriving DecidableEq, Repr

/-- The store writes (R124). -/
inductive StoreWrite where
  | commit (postage : Nat) (piece : PieceNo) (job : Nat) (dateCode : Nat)
  | close (serial : Nat)
  | spoilSlot (serial : Nat) (reason : SpoilReason)
  | spoilVerdict (piece : PieceNo) (serial : Nat) (value : Nat) (job : Nat) (reason : SpoilReason)
  | spoilUnmatched (piece : PieceNo)
  | credit (amount : Nat)
  | drain (sequence : Nat)
  deriving DecidableEq, Repr

/-- The start-up states (section 7.7). -/
inductive Startup where
  | reading
  | converting
  | inUse
  | unread
  deriving DecidableEq, Repr

/-- The volatile state of the Funds Store (table at the head of chapter 7). -/
structure Funds where
  pledged : Nat
  writes : List StoreWrite
  startup : Startup
  lowMark : Bool
  outMark : Bool
  warnMark : Bool
  fullMark : Bool
  deriving DecidableEq, Repr

/-! ## The Imprint Unit (chapter 8) -/

/-- The phase of a print path entry (R142). -/
inductive Phase where
  | requested
  | struck
  deriving DecidableEq, Repr

/-- A print path entry (R142); the record is named by its tag. -/
structure PathEntry where
  serial : Nat
  tag : Nat
  phase : Phase
  deriving DecidableEq, Repr

/-- A message to the print engine (R146). -/
inductive EngineMessage where
  | imprintRequest (serial : Nat) (indicium : List Byte)
  | print (serial : Nat)
  | cancel (serial : Nat)
  | clear
  deriving DecidableEq, Repr

/-- The state of the Imprint Unit (table at the head of chapter 8). -/
structure Imprint where
  path : List PathEntry
  sendQueue : List EngineMessage
  receiver : Receiver
  deriving DecidableEq, Repr

/-! ## The Verify Unit (chapter 9) -/

/-- The verify states (R158). -/
inductive VerifyState where
  | pending
  | good
  | spoilPending
  | spoiling
  | spoiled
  deriving DecidableEq, Repr

/-- An entry of the recent franked list (R158). -/
structure FrankedEntry where
  piece : PieceNo
  serial : Nat
  value : Nat
  job : Nat
  state : VerifyState
  reason : Option SpoilReason
  deriving DecidableEq, Repr

/-- The state of the Verify Unit (table at the head of chapter 9). -/
structure Verify where
  recent : List FrankedEntry
  unmatched : List PieceNo
  deriving DecidableEq, Repr

/-! ## The Service Port and Alerts (chapter 10) -/

/-- The events, in the priority order of R172. -/
inductive Event where
  | storeFault
  | fundsOut
  | spoilFull
  | loopLost
  | bankNotReady
  | fundsLow
  | spoilWarn
  | rateFault
  | pieceMissed
  | lateResult
  | verifyUnmatched
  | bankSwitched
  | jobConflict
  | frameDrop
  | beltReverse
  | attachChanged
  | quietReached
  deriving DecidableEq, Repr

/-- The snapshot latch when it is not empty (R171). -/
structure Latch where
  figures : List Nat
  index : Nat
  deriving DecidableEq, Repr

/-- The state of the Service Port and Alerts block, less the head mode (table at the head of chapter 10). -/
structure Port where
  config : Option Configuration
  events : List Event
  lastReported : List Event
  latch : Option Latch
  deriving DecidableEq, Repr

/-- The refusal codes of the service port commands. -/
inductive RefusalCode where
  | wrongMode
  | badArgument
  | badField
  | slotBusy
  | starting
  | storeUnread
  | notLoading
  | bankLimits
  | stepRange
  | stepOrder
  | bankCharge
  | perMille
  | zoneDuplicate
  | zoneRange
  | noSnapshot
  | badAmount
  | overCeiling
  | totalFull
  | queueFull
  | spoilEmpty
  | sequenceMismatch
  | unknownCommand
  deriving DecidableEq, Repr

/-- The outcome a status word carries (R167). -/
inductive Verdict where
  | accepted
  | refused (code : RefusalCode)
  deriving DecidableEq, Repr

/-- The further content of a status word, by the type of the command (R167). -/
inductive Further where
  | setup (bad : Option Nat) (mode : HeadMode)
  | operation (mode : HeadMode) (attach : Attach)
  | read (octets : Nat)
  | store (queued : Nat)
  | untyped
  deriving DecidableEq, Repr

/-- What READ_BANK_STATE says of one slot (R96). -/
structure SlotView where
  state : BankState
  generation : Nat
  bound : Nat
  deriving DecidableEq, Repr

/-- The four checkpoints of a record (R53). -/
structure Checkpoints where
  cutoff : Position
  commit : Position
  print : Position
  deadline : Position
  deriving DecidableEq, Repr

/-- The three fields of the last-fault record as READ_LAST_FAULT returns them: the piece number, the fault code 1 to 8, the class
(R68, R100). -/
structure FaultView where
  piece : PieceNo
  code : Nat
  serviceClass : Nat
  deriving DecidableEq, Repr

/-- The answer data of the read commands. -/
inductive AnswerData where
  | nothing
  /-- READ_FUNDS_NEXT: one figure and its octets (R171). -/
  | figure (value : Nat) (octets : Nat)
  /-- READ_PIECE (R78). -/
  | piece (record : Option (PieceRecord × Checkpoints)) (position : Position) (count : Nat) (defaulted : Bool)
  /-- READ_BANK_STATE (R96). -/
  | banks (slot0 slot1 : SlotView) (active : Option SlotNo) (switchPoint : Option SwitchPoint) (notReady : Bool)
  /-- READ_EVENTS (R173). -/
  | events (pending : List Event) (highest : Option Event)
  /-- CLEAR_EVENTS (R173). -/
  | remaining (pending : List Event)
  /-- READ_SPOIL_OLDEST (R165). -/
  | spoil (oldest : Option SpoilRecord) (listed : Nat) (claimed : Nat) (sequence : Nat)
  /-- READ_LINE_COUNTS (R4, R33). -/
  | lineCounts (badFrames : Nat) (duplicates : Nat)
  /-- READ_LAST_FAULT (R68). -/
  | lastFault (record : Option FaultView)
  deriving DecidableEq, Repr

/-- An answer: the status word and the answer data (R167). -/
structure Answer where
  verdict : Verdict
  urgent : Bool
  routine : Bool
  further : Further
  data : AnswerData
  deriving DecidableEq, Repr

/-- What a link carried last: a CUT, a frame or message wholly sent (the octets between OPEN and CLOSE), or a message that a loss of
power broke off, ended by neither CLOSE nor CUT so far (log 33). -/
inductive Sent where
  | cut
  | whole (octets : List Byte)
  | broken
  deriving DecidableEq, Repr

/-- The last thing that left the controller on each of its ports (log 13). -/
structure Outputs where
  answer : Option Answer
  loopOut : Option Sent
  engineOut : Option Sent
  deriving DecidableEq, Repr

/-! ## The whole controller -/

/-- The state of the controller. `pending` is the queue of commands waiting, first in, first out (log 1); `freeCount` is the
counter the free values of Config are applied to (log 20). -/
structure State where
  powered : Bool
  mode : HeadMode
  loop : LoopPort
  intake : Intake
  tracker : Tracker
  rates : RateStore
  engine : Option RatingInFlight
  store : Store
  funds : Funds
  imprint : Imprint
  verify : Verify
  port : Port
  out : Outputs
  freeCount : Nat
  pending : List Instr
  deriving DecidableEq, Repr

/-- The faults of a step. There is none: whatever goes wrong in the controller is an effect on its state (an event, a refusal
code in an answer, head mode HALTED), so no constructor exists and no command can stop the machine. Safe. -/
inductive Fault where
  deriving DecidableEq, Repr

/-- The refusals of a step. -/
inductive Refusal where
  /-- A command of the table without a meaning in this model. Raised by no command, since every row has its meaning. Safe. -/
  | notModelled (mnemonic : String)
  deriving DecidableEq, Repr

/-- An EMPTY bank slot (R80, R81). -/
def BankSlot.blank : BankSlot :=
  { state := .empty, content := none, generation := 0, bound := 0 }

/-- A store that has never held funds (R119, R121; log 19). -/
def Store.fresh : Store :=
  { dr := 0, ar := 0, ct := 0, pc := 0, credits := 0, open0 := none, open1 := none, spoils := [], sequence := 0,
    overflowCount := 0, overflowValue := 0 }

/-- The Loop Port after power-up (R15). -/
def LoopPort.initial : LoopPort :=
  { relay := .bypass, switching := none, attach := .bypass, receiver := .outside, idleRun := 0, lost := false, forward := [],
    own := [], transmitter := .idle, badFrames := 0 }

/-- The controller right after a power-up on a store that has never held funds. The send queue holds the one CLEAR of R157. -/
def State.reset : State :=
  { powered := true
    mode := .setup
    loop := LoopPort.initial
    intake := { jobs := [], closing := [], passing := [], feedHold := false, quiesce := .none, duplicates := 0 }
    tracker := { position := 0, pieces := [], lastFault := none, nextTag := 0 }
    rates := { slot0 := BankSlot.blank, slot1 := BankSlot.blank, switchPoint := none, notReady := false }
    engine := none
    store := Store.fresh
    funds := { pledged := 0, writes := [], startup := .reading, lowMark := false, outMark := false, warnMark := false,
               fullMark := false }
    imprint := { path := [], sendQueue := [.clear], receiver := .outside }
    verify := { recent := [], unmatched := [] }
    port := { config := none, events := [], lastReported := [], latch := none }
    out := { answer := none, loopOut := none, engineOut := none }
    freeCount := 0
    pending := [] }

end Sys2Proof.Machine
end

