-- ==== Sys2Proof/Config.lean ====
section
/-! DEFINITION. The values the manual leaves open: constants without a body, so that nothing can be proved of them but what holds
of every value. All but the last are applied to `State.freeCount` (log 20). -/

namespace Sys2Proof

/-- Whether the store write in progress at a reset or at a loss of power is applied (R136; log 8). -/
opaque Config.cutWriteApplied : Nat → Bool

/-- Whether the FEED RESUME of a retirement is given to the Loop Port before the retirement's own frame (R9, R77; log 9). -/
opaque Config.feedResumeFirst : Nat → Bool

/-- Whether the notice of an open place comes before the LATE_COMMIT slot write of the same completion (R72, R126; log 10). -/
opaque Config.placeNoticeFirst : Nat → Bool

/-- The piece count after a commit that completes with PC at 4 294 967 295 (R119, R125; log 11). -/
opaque Config.pieceCountPast : Nat → Word32

/-- How many octets the answer data has, where the manual gives no layout for it (R167; log 12). -/
opaque Config.answerOctets : Machine.AnswerData → Nat

end Sys2Proof
end

