-- ==== Sys2Proof/Machine/Flags.lean ====
section
/-! DEFINITION. Sets of events, the alert lines and the condition flags (R56, R118, R172, R173). -/

namespace Sys2Proof.Machine

/-! ## Event sets, kept in priority order so that equal sets are equal lists -/

/-- The events in priority order (R172). -/
def allEvents : List Event :=
  [.storeFault, .fundsOut, .spoilFull, .loopLost, .bankNotReady, .fundsLow, .spoilWarn, .rateFault, .pieceMissed, .lateResult,
    .verifyUnmatched, .bankSwitched, .jobConflict, .frameDrop, .beltReverse, .attachChanged, .quietReached]

/-- Whether an event is of the urgent class (R172). -/
def Event.urgent : Event → Bool
  | .storeFault | .fundsOut | .spoilFull | .loopLost | .bankNotReady => true
  | .fundsLow | .spoilWarn | .rateFault | .pieceMissed | .lateResult | .verifyUnmatched | .bankSwitched | .jobConflict
  | .frameDrop | .beltReverse | .attachChanged | .quietReached => false

/-- A set of events with one more event (R172): held at most once, in priority order. -/
def addEvent (e : Event) (set : List Event) : List Event :=
  allEvents.filter (fun x => x == e || set.contains x)

/-- A set of events less one event. -/
def dropEvent (e : Event) (set : List Event) : List Event :=
  set.filter (fun x => x != e)

/-- A set of events less another set (R173). -/
def dropEvents (gone set : List Event) : List Event :=
  set.filter (fun x => !gone.contains x)

/-- The URGENT line for a pending set (R172). -/
def urgentLine (set : List Event) : Bool :=
  set.any Event.urgent

/-- The ROUTINE line for a pending set (R172). -/
def routineLine (set : List Event) : Bool :=
  set.any (fun e => !e.urgent)

/-- The highest-priority pending cause (R172): the first event of the table that is in the set. -/
def highestCause (set : List Event) : Option Event :=
  allEvents.find? (fun e => set.contains e)

/-! ## Condition flags of a record (R56) -/

/-- The empty set of condition flags. -/
def ConditionFlags.none : ConditionFlags :=
  { weightDefaulted := false, dimsDefaulted := false, addressDefaulted := false, weightMargin := false, lateData := false,
    dupReport := false, releaseTaken := false }

/-- The union of two sets of condition flags (R66: a result's flags are added and remove none). -/
def ConditionFlags.union (a b : ConditionFlags) : ConditionFlags :=
  { weightDefaulted := a.weightDefaulted || b.weightDefaulted
    dimsDefaulted := a.dimsDefaulted || b.dimsDefaulted
    addressDefaulted := a.addressDefaulted || b.addressDefaulted
    weightMargin := a.weightMargin || b.weightMargin
    lateData := a.lateData || b.lateData
    dupReport := a.dupReport || b.dupReport
    releaseTaken := a.releaseTaken || b.releaseTaken }

/-- Whether a record carries one of the three default flags (R78). -/
def ConditionFlags.defaulted (f : ConditionFlags) : Bool :=
  f.weightDefaulted || f.dimsDefaulted || f.addressDefaulted

end Sys2Proof.Machine
end

