-- ==== Sys2Proof/Machine/Operands.lean ====
section
/-! DEFINITION. The operand forms: checks, the layout of line frames and of engine messages, both ways (chapters 2 and 8). -/

namespace Sys2Proof.Machine

/-! ## Checks -/

/-- One bit of a check with the given generator (R3, R145). -/
def checkBit (generator register : Word16) (bit : Bool) : Word16 :=
  if bit = register.msb then register <<< 1 else (register <<< 1) ^^^ generator

/-- One octet of a check, the most significant bit first. -/
def checkOctet (generator register : Word16) (b : Byte) : Word16 :=
  [7, 6, 5, 4, 3, 2, 1, 0].foldl (fun r i => checkBit generator r (b.getLsbD i)) register

/-- A check over octets in order, from a start value. -/
def checkOver (generator start : Word16) (octets : List Byte) : Word16 :=
  octets.foldl (checkOctet generator) start

/-- The line-frame check (R3); the messages of the imprint port use it too (R146). -/
def lineCheck (octets : List Byte) : Word16 :=
  checkOver 0x8005#16 0xFFFF#16 octets

/-- The check code of an indicium, from the configured seed (R145). -/
def checkCode (seed : Nat) (octets : List Byte) : Word16 :=
  checkOver 0x1021#16 (BitVec.ofNat 16 seed) octets

/-! ## Octets and numbers -/

/-- A number in n octets, the most significant first. -/
def toOctets : Nat → Nat → List Byte
  | 0, _ => []
  | n + 1, v => BitVec.ofNat 8 (v / 256 ^ n) :: toOctets n v

/-- The number a list of octets holds, the most significant first. -/
def ofOctets (octets : List Byte) : Nat :=
  octets.foldl (fun acc b => acc * 256 + b.toNat) 0

/-- The octet of a body at an offset; 0 beyond its end, where the length tests refuse the body (R17). -/
def octetAt (body : List Byte) (i : Nat) : Nat :=
  (body.getD i 0).toNat

/-- The two-octet field of a body at an offset. -/
def pairAt (body : List Byte) (i : Nat) : Nat :=
  octetAt body i * 256 + octetAt body (i + 1)

/-- The four-octet field of a body at an offset. -/
def quadAt (body : List Byte) (i : Nat) : Nat :=
  pairAt body i * 65536 + pairAt body (i + 2)

/-- The piece number of a body that begins with one. -/
def pieceAt (body : List Byte) : PieceNo :=
  BitVec.ofNat 16 (pairAt body 0)

/-- The two octets that carry a 16-bit register. -/
def registerOctets (r : Word16) : List Byte :=
  toOctets 2 r.toNat

/-! ## The frame on the link (R3, R16) -/

/-- The octets of a frame before its check. -/
def Frame.checked (f : Frame) : List Byte :=
  f.kind :: f.origin :: f.hop :: BitVec.ofNat 8 f.body.length :: f.body

/-- The octets of a frame between OPEN and CLOSE, its check computed afresh (R3, R5, R9). -/
def Frame.octets (f : Frame) : List Byte :=
  f.checked ++ registerOctets (lineCheck f.checked)

/-- The tests of R3 on the octets of a completed frame; true when the frame is bad. -/
def badOctets (octets : List Byte) : Bool :=
  let len := octetAt octets 3
  decide (octets.length < 6) || decide (40 < len) || decide (octets.length ≠ len + 6) ||
    decide (octetAt octets 2 = 0) || decide (32 < octetAt octets 2) ||
    decide (registerOctets (lineCheck (octets.take (len + 4))) ≠ octets.drop (len + 4))

/-- The frame that good octets spell. -/
def frameOf (octets : List Byte) : Frame :=
  { kind := octets.getD 0 0, origin := octets.getD 1 0, hop := octets.getD 2 0,
    body := (octets.drop 4).take (octetAt octets 3) }

/-- R3 for a frame whose length octet and check are right: the hop count is 0 or above 32, or the body is over 40 octets. -/
def Frame.bad (f : Frame) : Bool :=
  decide (f.hop.toNat = 0) || decide (32 < f.hop.toNat) || decide (40 < f.body.length)

/-! ## Frame kinds (R16) -/

/-- The ten frame kinds. -/
inductive FrameKind where
  | pieceNotice
  | measureReport
  | addressReport
  | jobOpen
  | jobClose
  | rateSwitch
  | feedHold
  | feedResume
  | frankReport
  | verifyReport
  deriving DecidableEq, Repr

/-- The code of a kind. -/
def kindCode : FrameKind → Byte
  | .pieceNotice => 0x11
  | .measureReport => 0x12
  | .addressReport => 0x13
  | .jobOpen => 0x21
  | .jobClose => 0x22
  | .rateSwitch => 0x23
  | .feedHold => 0x31
  | .feedResume => 0x32
  | .frankReport => 0x33
  | .verifyReport => 0x41

/-- The kinds in the order of the layout table. -/
def allKinds : List FrameKind :=
  [.pieceNotice, .measureReport, .addressReport, .jobOpen, .jobClose, .rateSwitch, .feedHold, .feedResume, .frankReport,
    .verifyReport]

/-- The kind an octet names, if it is one of the ten codes. -/
def kindOf (code : Byte) : Option FrameKind :=
  allKinds.find? (fun k => kindCode k == code)

/-! ## Measure and address blocks (R18) -/

/-- The code of a weight quality. -/
def qualityCode : WeightQuality → Nat
  | .settled => 1
  | .unsettled => 2
  | .failed => 3

/-- The weight quality of a code. -/
def qualityOf : Nat → Option WeightQuality
  | 1 => some .settled
  | 2 => some .unsettled
  | 3 => some .failed
  | _ => none

/-- The measure block at an offset, none when it is malformed. -/
def measureAt (body : List Byte) (i : Nat) : Option MeasurePart :=
  match qualityOf (octetAt body (i + 2)) with
  | none => none
  | some q =>
    if pairAt body (i + 3) ≤ 1023 ∧ pairAt body (i + 5) ≤ 1023 ∧ octetAt body (i + 8) ≤ 1 then
      some { weight := pairAt body i, quality := q, length := pairAt body (i + 3), height := pairAt body (i + 5),
             thickness := octetAt body (i + 7), dimsValid := octetAt body (i + 8) = 1 }
    else none

/-- The nine octets of a measure block. -/
def measureBlock (m : MeasurePart) : List Byte :=
  toOctets 2 m.weight ++ toOctets 1 (qualityCode m.quality) ++ toOctets 2 m.length ++ toOctets 2 m.height ++
    toOctets 1 m.thickness ++ toOctets 1 (if m.dimsValid then 1 else 0)

/-- The octets that hold n digits. -/
def digitOctets (n : Nat) : Nat :=
  (n + 1) / 2

/-- The n-th half octet of a body from an offset, the more significant half first. -/
def halfAt (body : List Byte) (i n : Nat) : Nat :=
  if n % 2 = 0 then octetAt body (i + n / 2) / 16 else octetAt body (i + n / 2) % 16

/-- The address block at an offset, none when it is malformed. -/
def addressAt (body : List Byte) (i : Nat) : Option AddressPart :=
  let n := octetAt body (i + 2)
  let digits := (List.range n).map (halfAt body (i + 3))
  if octetAt body i ≤ 31 ∧ octetAt body (i + 1) ≤ 3 ∧ n ≤ 8 ∧ digits.all (fun d => decide (d ≤ 9)) = true ∧
      (n % 2 = 0 ∨ halfAt body (i + 3) n = 15) then
    some { serviceClass := octetAt body i, level := octetAt body (i + 1), digits := digits }
  else none

/-- Digits packed two to an octet, the pad value 0xF in an odd last half (R18). -/
def packDigits : List Nat → List Byte
  | [] => []
  | [a] => [BitVec.ofNat 8 (a * 16 + 15)]
  | a :: b :: rest => BitVec.ofNat 8 (a * 16 + b) :: packDigits rest

/-- The octets of an address block. -/
def addressBlock (a : AddressPart) : List Byte :=
  toOctets 1 a.serviceClass ++ toOctets 1 a.level ++ toOctets 1 a.digits.length ++ packDigits a.digits

/-! ## Bodies (R17 to R26) -/

/-- A piece notice (R19). -/
structure Notice where
  piece : PieceNo
  job : Nat
  takeStation : Nat
  releasedBy : Nat
  measure : Option MeasurePart
  address : Option AddressPart
  deriving DecidableEq, Repr

/-- A verdict of the verifier (R26). -/
inductive VerifyVerdict where
  | good
  | unreadable
  | valueMismatch
  | notSeen
  deriving DecidableEq, Repr

/-- What a good frame of a known kind says. FEED HOLD, FEED RESUME and FRANK REPORT are only forwarded (R5). -/
inductive LineMessage where
  | notice (n : Notice)
  | measureReport (piece : PieceNo) (m : MeasurePart)
  | addressReport (piece : PieceNo) (a : AddressPart)
  | jobOpen (job : Nat) (params : JobParams)
  | jobClose (job : Nat)
  | rateSwitch (point : SwitchPoint)
  | forwardedOnly
  | verifyReport (piece : PieceNo) (station : Nat) (verdict : VerifyVerdict)
  deriving DecidableEq, Repr

/-- What the tests of chapter 2 find a frame to be. -/
inductive Reading where
  | unknownKind
  | malformed
  | good (m : LineMessage)
  deriving DecidableEq, Repr

/-- The octets of the measure block that content flags promise. -/
def measureOctets (flags : Nat) : Nat :=
  if flags % 2 = 1 then 9 else 0

/-- The body length that the content flags and the digit count require (R19). -/
def noticeLength (body : List Byte) : Nat :=
  let flags := octetAt body 5
  6 + measureOctets flags + (if 2 ≤ flags then 3 + digitOctets (octetAt body (6 + measureOctets flags + 2)) else 0)

/-- A PIECE NOTICE body (R19), none when it is malformed. -/
def readNotice (origin : Nat) (body : List Byte) : Option LineMessage :=
  let flags := octetAt body 5
  let releasedBy := octetAt body 4
  if body.length < 6 ∨ 3 < flags ∨ body.length ≠ noticeLength body then none
  else if octetAt body 2 = 0 ∨ 30 < octetAt body 3 ∨ 30 < releasedBy then none
  else if releasedBy ≠ 0 ∧ releasedBy ≠ origin then none
  else if releasedBy = 0 ∧ flags ≠ 0 then none
  else
    let m := if flags % 2 = 1 then measureAt body 6 else none
    let a := if 2 ≤ flags then addressAt body (6 + measureOctets flags) else none
    if (flags % 2 = 1 ∧ m = none) ∨ (2 ≤ flags ∧ a = none) then none
    else some (.notice { piece := pieceAt body, job := octetAt body 2, takeStation := octetAt body 3,
                         releasedBy := releasedBy, measure := m, address := a })

/-- A MEASURE REPORT body (R20). -/
def readMeasureReport (body : List Byte) : Option LineMessage :=
  if body.length ≠ 11 then none else (measureAt body 2).map (.measureReport (pieceAt body))

/-- An ADDRESS REPORT body (R21). -/
def readAddressReport (body : List Byte) : Option LineMessage :=
  if body.length < 5 ∨ body.length ≠ 5 + digitOctets (octetAt body 4) then none
  else (addressAt body 2).map (.addressReport (pieceAt body))

/-- A JOB OPEN body (R22). -/
def readJobOpen (body : List Byte) : Option LineMessage :=
  if body.length ≠ 8 ∨ octetAt body 0 = 0 ∨ 31 < octetAt body 1 ∨ 3 < octetAt body 2 ∨ 15 < octetAt body 5 then none
  else some (.jobOpen (octetAt body 0)
    { defaultClass := octetAt body 1, defaultLevel := octetAt body 2, ceilingWeight := pairAt body 3,
      defaultZone := octetAt body 5, dateCode := pairAt body 6 })

/-- A JOB CLOSE body (R22). -/
def readJobClose (body : List Byte) : Option LineMessage :=
  if body.length ≠ 1 ∨ octetAt body 0 = 0 then none else some (.jobClose (octetAt body 0))

/-- A RATE SWITCH body (R23). -/
def readRateSwitch (body : List Byte) : Option LineMessage :=
  if body.length ≠ 4 then none
  else some (.rateSwitch { first := pieceAt body, generation := pairAt body 2 })

/-- A FEED HOLD or FEED RESUME body (R24). -/
def readFeed (body : List Byte) : Option LineMessage :=
  if body.length ≠ 1 ∨ 8 < octetAt body 0 then none else some .forwardedOnly

/-- The tests of R25 on the outcome, reason, value and serial of a FRANK REPORT. -/
def frankFieldsGood (outcome reason value serial : Nat) : Bool :=
  if outcome = 1 then decide (reason = 0 ∧ value ≠ 0 ∧ serial ≠ 0)
  else if outcome = 2 then decide (1 ≤ reason ∧ reason ≤ 3 ∧ value = 0 ∧ serial ≠ 0)
  else if outcome = 3 then decide (4 ≤ reason ∧ reason ≤ 6 ∧ value = 0 ∧ (reason = 6 ∨ serial = 0))
  else false

/-- A FRANK REPORT body (R25). -/
def readFrank (body : List Byte) : Option LineMessage :=
  if body.length ≠ 12 ∨ frankFieldsGood (octetAt body 2) (octetAt body 3) (quadAt body 4) (quadAt body 8) = false then none
  else some .forwardedOnly

/-- The verdict of a code (R26). -/
def verdictOf : Nat → Option VerifyVerdict
  | 1 => some .good
  | 2 => some .unreadable
  | 3 => some .valueMismatch
  | 4 => some .notSeen
  | _ => none

/-- A VERIFY REPORT body (R26). -/
def readVerify (body : List Byte) : Option LineMessage :=
  if body.length ≠ 4 ∨ octetAt body 2 = 0 ∨ 30 < octetAt body 2 then none
  else (verdictOf (octetAt body 3)).map (.verifyReport (pieceAt body) (octetAt body 2))

/-- A body by its kind. -/
def readBody (kind : FrameKind) (origin : Nat) (body : List Byte) : Option LineMessage :=
  match kind with
  | .pieceNotice => readNotice origin body
  | .measureReport => readMeasureReport body
  | .addressReport => readAddressReport body
  | .jobOpen => readJobOpen body
  | .jobClose => readJobClose body
  | .rateSwitch => readRateSwitch body
  | .feedHold => readFeed body
  | .feedResume => readFeed body
  | .frankReport => readFrank body
  | .verifyReport => readVerify body

/-- The reading of a good frame (R17): the kind, then the origin and the tests of the kind. -/
def Frame.reading (f : Frame) : Reading :=
  match kindOf f.kind with
  | none => .unknownKind
  | some k =>
    if f.origin.toNat = 0 ∨ 30 < f.origin.toNat then .malformed
    else match readBody k f.origin.toNat f.body with
      | none => .malformed
      | some m => .good m

/-! ## Bodies the controller composes (R24, R27, R28) -/

/-- The body of a FEED HOLD or FEED RESUME. -/
def feedBody (count : Nat) : List Byte :=
  toOctets 1 count

/-- The content flags of a notice. -/
def contentFlags (m : Option MeasurePart) (a : Option AddressPart) : Nat :=
  (if m.isSome then 1 else 0) + (if a.isSome then 2 else 0)

/-- The body of a released PIECE NOTICE (R27). -/
def releaseBody (piece : PieceNo) (job station : Nat) (m : Option MeasurePart) (a : Option AddressPart) : List Byte :=
  toOctets 2 piece.toNat ++ toOctets 1 job ++ toOctets 1 0 ++ toOctets 1 station ++ toOctets 1 (contentFlags m a) ++
    (match m with | some p => measureBlock p | none => []) ++ (match a with | some p => addressBlock p | none => [])

/-- The cause of a retirement that composes a FRANK REPORT (R28). -/
inductive FrankCause where
  | franked
  | printFailed
  | noResult
  | lateCommit
  | pathBusy
  | ratingLate
  | storeFault
  deriving DecidableEq, Repr

/-- The outcome code that goes with a cause (R25, R28). -/
def outcomeCode : FrankCause → Nat
  | .franked => 1
  | .printFailed | .noResult | .lateCommit => 2
  | .pathBusy | .ratingLate | .storeFault => 3

/-- The reason code of a cause (R25, R28). -/
def reasonCode : FrankCause → Nat
  | .franked => 0
  | .printFailed => 1
  | .noResult => 2
  | .lateCommit => 3
  | .pathBusy => 4
  | .ratingLate => 5
  | .storeFault => 6

/-- The body of a FRANK REPORT (R25). -/
def frankBody (piece : PieceNo) (cause : FrankCause) (value serial : Nat) : List Byte :=
  toOctets 2 piece.toNat ++ toOctets 1 (outcomeCode cause) ++ toOctets 1 (reasonCode cause) ++ toOctets 4 value ++
    toOctets 4 serial

/-- The take field of a notice's body rewritten to a station number (R7, R16). -/
def writeTake (body : List Byte) (station : Nat) : List Byte :=
  body.set 3 (BitVec.ofNat 8 station)

/-! ## Fault codes (R68, R100) -/

/-- The code of a rating fault (table of R100). -/
def RatingFault.code : RatingFault → Nat
  | .nullClass => 1
  | .classRange => 2
  | .classAbsent => 3
  | .levelIneligible => 4
  | .shapeRefused => 5
  | .overweight => 6
  | .valueOver => 7
  | .fundsShort => 8

/-- The last-fault record with its fault as the code of R100 (R68). -/
def LastFault.view (x : LastFault) : FaultView :=
  { piece := x.piece, code := x.fault.code, serviceClass := x.serviceClass }

/-! ## The indicium and the engine messages (R144 to R148) -/

/-- The shape code (R144). UNDERSIZE is never rated. -/
def shapeCode : Shape → Nat
  | .undersize => 0
  | .letter => 1
  | .largeLetter => 2
  | .parcel => 3

/-- Octets 0 to 19 of the indicium record (R144). -/
def indiciumHead (value dateCode station serial ar generation : Nat) (shape : Shape) (serviceClass : Nat) (piece : PieceNo) :
    List Byte :=
  toOctets 4 value ++ toOctets 2 dateCode ++ toOctets 1 station ++ toOctets 4 serial ++ toOctets 4 (ar % 4294967296) ++
    toOctets 2 generation ++ toOctets 1 (shapeCode shape * 32 + serviceClass) ++ toOctets 2 piece.toNat

/-- An indicium record: its head and the check code (R144, R145). -/
def withCheckCode (seed : Nat) (head : List Byte) : List Byte :=
  head ++ registerOctets (checkCode seed head)

/-- The type octet and the fields of a message to the engine (R146). -/
def EngineMessage.fields : EngineMessage → List Byte
  | .imprintRequest serial indicium => 0x51 :: (toOctets 4 serial ++ indicium)
  | .print serial => 0x52 :: toOctets 4 serial
  | .cancel serial => 0x53 :: toOctets 4 serial
  | .clear => [0x54]

/-- The octets of a message to the engine, with its check (R146). -/
def EngineMessage.octets (m : EngineMessage) : List Byte :=
  m.fields ++ registerOctets (lineCheck m.fields)

/-- A good result from the engine (R146, R148). The engine reason of an IMPRINT FAILED is not kept. -/
inductive EngineResult where
  | done (serial : Nat)
  | failed (serial : Nat)
  deriving DecidableEq, Repr

/-- The tests of R148 on a completed message: its type, its length, its check; none when it is discarded. -/
def readEngine (octets : List Byte) : Option EngineResult :=
  let fields := octets.take (octets.length - 2)
  if registerOctets (lineCheck fields) ≠ octets.drop (octets.length - 2) then none
  else if octetAt octets 0 = 0x61 ∧ octets.length = 7 then some (.done (quadAt octets 1))
  else if octetAt octets 0 = 0x62 ∧ octets.length = 8 then some (.failed (quadAt octets 1))
  else none

/-! ## Receivers (R2, R148) -/

/-- What one symbol brings about in a receiver. -/
inductive Received where
  | nothing
  | abandoned
  | completed (octets : List Byte)
  deriving DecidableEq, Repr

/-- One symbol at a receiver whose longest frame has `limit` octets (R2). -/
def receiveStep (limit : Nat) (r : Receiver) (sym : Symbol) : Receiver × Received :=
  match r, sym with
  | .outside, .opener => (.receiving [], .nothing)
  | .outside, .idle | .outside, .closer | .outside, .cut | .outside, .octet _ => (.outside, .nothing)
  | .receiving _, .opener => (.receiving [], .abandoned)
  | .receiving buffer, .closer => (.outside, .completed buffer)
  | .receiving _, .idle | .receiving _, .cut => (.outside, .abandoned)
  | .receiving buffer, .octet b =>
    if buffer.length < limit then (.receiving (buffer ++ [b]), .nothing) else (.ignoring, .abandoned)
  | .ignoring, .opener => (.receiving [], .nothing)
  | .ignoring, .idle | .ignoring, .closer | .ignoring, .cut => (.outside, .nothing)
  | .ignoring, .octet _ => (.ignoring, .nothing)

/-- The receiver after a reception abandoned for a cause (R2). -/
def receiverAfter : AbandonCause → Receiver
  | .cut | .idle => .outside
  | .secondOpen => .receiving []
  | .tooLong => .ignoring

end Sys2Proof.Machine
end

