-- ==== Sys2Proof/Machine/Ops.lean ====
section
/-! DEFINITION. The shared operations of the blocks: events, the outgoing link, the piece table, the store, the thresholds, the
Verify Unit's requests, the answers of the service port, and the reset. -/

namespace Sys2Proof.Machine

/-- A command's effect on a controller that has power. Without power nothing happens (log 7). -/
def whenPowered (s : State) (effect : State → State) : Host.Outcome State Fault Refusal :=
  .next (if s.powered then effect s else s)

/-! ## Comparisons and small numbers -/

/-- Whether a checkpoint is reached at a position (spec/00_scope.md, "Comparing belt positions"; R53). -/
def reached (position checkpoint : Position) : Bool :=
  decide ((position - checkpoint).toNat < 8388608)

/-- Whether a piece number is at or after another (spec/00_scope.md, "Comparing piece numbers"; R91). -/
def atOrAfter (p q : PieceNo) : Bool :=
  decide ((p - q).toNat < 32768)

/-- A count that saturates at a limit. -/
def saturate (limit n : Nat) : Nat :=
  if n < limit then n else limit

/-! ## Events and modes -/

/-- An event is raised (R172). -/
def raise (e : Event) (s : State) : State :=
  { s with port := { s.port with events := addEvent e s.port.events, lastReported := dropEvent e s.port.lastReported } }

/-- The head enters HALTED, and the quiesce condition becomes none (R51, R134, R169). -/
def halt (s : State) : State :=
  { s with mode := .halted, intake := { s.intake with quiesce := .none } }

/-- In QUIESCING with an empty piece table the head becomes QUIET (R49). -/
def settleQuiet (s : State) : State :=
  if s.mode = .quiescing ∧ s.tracker.pieces = [] then raise .quietReached { s with mode := .quiet } else s

/-- The head becomes QUIESCING and the quiesce condition none (R46 to R48), and goes on to QUIET if no piece is held (R49). -/
def enterQuiescing (s : State) : State :=
  settleQuiet { s with mode := .quiescing, intake := { s.intake with quiesce := .none } }

/-! ## Configuration -/

/-- What stands for the configuration record where it is absent and a rule still reads it, in states no run reaches (log 18). -/
def blankConfiguration : Configuration :=
  { station := 0, distance := 0, cutoffLead := 0, commitLead := 0, resultWindow := 0, takeLimit := 0, holdLevel := 0,
    resumeLevel := 0, resolution := 0, seed := 0, takeFloor := 0, warnLevel := 0 }

/-- The configuration record (R170). -/
def State.conf (s : State) : Configuration :=
  s.port.config.getD blankConfiguration

/-- Whether a station number is the configured one; never while the record is absent (R5, R8, R159). -/
def State.isOwn (s : State) (station : Nat) : Bool :=
  match s.port.config with
  | none => false
  | some c => c.station == station

/-! ## The Loop Port -/

/-- The bad-frame count rises by one, saturating (R4). -/
def countBad (s : State) : State :=
  { s with loop := { s.loop with badFrames := saturate 65535 (s.loop.badFrames + 1) } }

/-- The outgoing arbiter, when the transmitter is free (R10). The transmitter is on loop-out only while the relay carries the loop
through the controller and is not switching (section 1.9). -/
def arbitrate (s : State) : State :=
  if s.loop.relay = .through ∧ s.loop.switching = none ∧ s.loop.transmitter = .idle then
    match s.loop.forward with
    | e :: _ => if e.held then s else { s with loop := { s.loop with transmitter := .sendingForward } }
    | [] =>
      match s.loop.own with
      | _ :: _ => { s with loop := { s.loop with transmitter := .sendingOwn } }
      | [] => s
  else s

/-- The frame the Loop Port completes from a kind and a body (R9). -/
def ownFrame (s : State) (kind : FrameKind) (body : List Byte) : Frame :=
  { kind := kindCode kind, origin := BitVec.ofNat 8 s.conf.station, hop := 32, body := body }

/-- A block gives the Loop Port a frame (R9). -/
def giveFrame (kind : FrameKind) (body : List Byte) (s : State) : State :=
  if s.loop.attach = .attached then
    if s.loop.own.length < 8 then
      arbitrate { s with loop := { s.loop with own := s.loop.own ++ [ownFrame s kind body] } }
    else raise .frameDrop s
  else s

/-! ## Jobs -/

/-- What stands for the parameters of a job that is not in the table, in states no run reaches (R29; log 18). -/
def blankParams : JobParams :=
  { defaultClass := 0, defaultLevel := 0, ceilingWeight := 0, defaultZone := 0, dateCode := 0 }

/-- The record of a job number (R29). -/
def State.job? (s : State) (n : Nat) : Option JobRecord :=
  s.intake.jobs.find? (fun j => j.number == n)

/-- The parameters of a job (R29). -/
def State.jobParams (s : State) (n : Nat) : JobParams :=
  match s.job? n with
  | some j => j.params
  | none => blankParams

/-- Whether a job is in the table and OPEN (R34, R38). -/
def State.jobIsOpen (s : State) (n : Nat) : Bool :=
  match s.job? n with
  | some j => j.isOpen
  | none => false

/-- Whether a job has pieces in the table (R29). -/
def State.jobHasPieces (s : State) (n : Nat) : Bool :=
  s.tracker.pieces.any (fun r => r.job == n)

/-! ## The piece table -/

/-- The checkpoints of a reference position (R53). -/
def checkpointsOf (c : Configuration) (reference : Position) : Checkpoints :=
  let at_ := reference + BitVec.ofNat 24 c.distance
  { cutoff := at_ - BitVec.ofNat 24 c.cutoffLead, commit := at_ - BitVec.ofNat 24 c.commitLead, print := at_,
    deadline := at_ + BitVec.ofNat 24 c.resultWindow }

/-- The checkpoints of a record (R53, R55). -/
def State.checkpoints (s : State) (r : PieceRecord) : Checkpoints :=
  checkpointsOf s.conf r.reference

/-- The record of a piece number (R54). -/
def State.piece? (s : State) (p : PieceNo) : Option PieceRecord :=
  s.tracker.pieces.find? (fun r => r.piece == p)

/-- The record a tag names (R97). -/
def State.tagged? (s : State) (tag : Nat) : Option PieceRecord :=
  s.tracker.pieces.find? (fun r => r.tag == tag)

/-- The record that carries a serial and stands in a state. -/
def State.serial? (s : State) (serial : Nat) (state : PieceState) : Option PieceRecord :=
  s.tracker.pieces.find? (fun r => r.serial == some serial && r.state == state)

/-- The rating queue: the READY records in table order (R63). -/
def State.ratingQueue (s : State) : List PieceRecord :=
  s.tracker.pieces.filter (fun r => r.state == .ready)

/-- The piece table with a change made to the record of a tag. -/
def changeRecord (tag : Nat) (change : PieceRecord → PieceRecord) (s : State) : State :=
  { s with tracker := { s.tracker with
      pieces := s.tracker.pieces.map (fun r => if r.tag = tag then change r else r) } }

/-- A record put into reference order (R54). -/
def insertRecord (r : PieceRecord) : List PieceRecord → List PieceRecord
  | [] => [r]
  | x :: rest => if reached r.reference x.reference then x :: insertRecord r rest else r :: x :: rest

/-! ## Bank bindings -/

/-- A slot of the Rate Store. -/
def RateStore.slot (b : RateStore) : SlotNo → BankSlot
  | .zero => b.slot0
  | .one => b.slot1

/-- The Rate Store with one slot replaced. -/
def RateStore.setSlot (b : RateStore) (n : SlotNo) (v : BankSlot) : RateStore :=
  match n with
  | .zero => { b with slot0 := v }
  | .one => { b with slot1 := v }

/-- A slot when one of its bindings is released: a RETIRING slot without bindings becomes EMPTY (R94). -/
def BankSlot.released (b : BankSlot) : BankSlot :=
  if b.state = .retiring ∧ b.bound - 1 = 0 then BankSlot.blank else { b with bound := b.bound - 1 }

/-- The binding of a retired record is released (R77, R94). -/
def releaseBinding (n : SlotNo) (s : State) : State :=
  { s with rates := s.rates.setSlot n (s.rates.slot n).released }

/-! ## Feed control and retirement -/

/-- The feed-hold rule for a count a take has raised (R42). -/
def feedHoldRule (s : State) : State :=
  if s.tracker.pieces.length = s.conf.holdLevel ∧ s.intake.feedHold = false then
    giveFrame .feedHold (feedBody s.tracker.pieces.length) { s with intake := { s.intake with feedHold := true } }
  else s

/-- The frame of a retirement and the FEED RESUME of R43, which are given in either order (R9, R77; log 9). -/
def giveAtRetirement (kind : FrameKind) (body : List Byte) (s : State) : State :=
  if s.port.config.isSome ∧ s.tracker.pieces.length = s.conf.resumeLevel ∧ s.intake.feedHold = true then
    let t := { s with intake := { s.intake with feedHold := false }, freeCount := s.freeCount + 1 }
    if Config.feedResumeFirst s.freeCount then
      giveFrame kind body (giveFrame .feedResume (feedBody t.tracker.pieces.length) t)
    else giveFrame .feedResume (feedBody t.tracker.pieces.length) (giveFrame kind body t)
  else giveFrame kind body s

/-- The record leaves the table and its binding is released (R77). -/
def removeRecord (r : PieceRecord) (s : State) : State :=
  releaseBinding r.binding.slot
    { s with tracker := { s.tracker with pieces := s.tracker.pieces.filter (fun x => x.tag != r.tag) } }

/-- The retirement of a record with the frame composed for it (R77). -/
def retire (r : PieceRecord) (kind : FrameKind) (body : List Byte) (s : State) : State :=
  settleQuiet (giveAtRetirement kind body (removeRecord r s))

/-- A retirement with a FRANK REPORT (R28). -/
def retireReported (r : PieceRecord) (cause : FrankCause) (value serial : Nat) (s : State) : State :=
  retire r .frankReport (frankBody r.piece cause value serial) s

/-- A piece given up unfranked: PIECE_MISSED and a retirement with UNFRANKED (R70, R71, R73, R76). -/
def missPiece (r : PieceRecord) (cause : FrankCause) (serial : Nat) (s : State) : State :=
  retireReported r cause 0 serial (raise .pieceMissed s)

/-! ## Funds and spoil thresholds -/

/-- Whether the free funds, DR minus the pledged total, are below a level (R139). -/
def State.fundsBelow (s : State) (level : Nat) : Bool :=
  decide (s.store.dr < s.funds.pledged + level)

/-- The raising of FUNDS_LOW meets a held condition AT_FUNDS_LOW (R48). -/
def meetFundsLow (s : State) : State :=
  if s.intake.quiesce = .atFundsLow then enterQuiescing s else s

/-- The warn level is judged (R140). -/
def judgeLow (c : Configuration) (s : State) : State :=
  if s.fundsBelow c.warnLevel then
    if s.funds.lowMark then s
    else meetFundsLow (raise .fundsLow { s with funds := { s.funds with lowMark := true } })
  else { s with funds := { s.funds with lowMark := false } }

/-- The take floor is judged (R140). -/
def judgeOut (c : Configuration) (s : State) : State :=
  if s.fundsBelow c.takeFloor then
    if s.funds.outMark then s else raise .fundsOut { s with funds := { s.funds with outMark := true } }
  else { s with funds := { s.funds with outMark := false } }

/-- Each funds level is judged in turn (R140). The levels are fields of the configuration record. -/
def judgeFunds (s : State) : State :=
  match s.port.config with
  | none => s
  | some c => judgeOut c (judgeLow c s)

/-- The spoil level of 40 is judged (R141). -/
def judgeWarn (s : State) : State :=
  if 40 ≤ s.store.spoils.length then
    if s.funds.warnMark then s else raise .spoilWarn { s with funds := { s.funds with warnMark := true } }
  else { s with funds := { s.funds with warnMark := false } }

/-- The spoil level of 48 is judged (R141). -/
def judgeFull (s : State) : State :=
  if 48 ≤ s.store.spoils.length then
    if s.funds.fullMark then s else raise .spoilFull { s with funds := { s.funds with fullMark := true } }
  else { s with funds := { s.funds with fullMark := false } }

/-- The spoil levels are judged at a completion that changed the number of records from `before` (R141). -/
def judgeSpoils (before : Nat) (s : State) : State :=
  if s.store.spoils.length = before then s else judgeFull (judgeWarn s)

/-! ## Store writes -/

/-- The pledged total falls by a postage (R122). -/
def lowerPledge (postage : Nat) (s : State) : State :=
  { s with funds := { s.funds with pledged := s.funds.pledged - postage } }

/-- A write joins the end of the store write queue (R124). -/
def enqueueWrite (w : StoreWrite) (s : State) : State :=
  { s with funds := { s.funds with writes := s.funds.writes ++ [w] } }

/-- The COMMIT writes in a queue. -/
def commitsIn (writes : List StoreWrite) : Nat :=
  writes.countP (fun w => match w with | .commit .. => true | _ => false)

/-- The occupied open-imprint slots (R120). -/
def Store.occupied (st : Store) : List OpenImprint :=
  st.open0.toList ++ st.open1.toList

/-- The admission of a COMMIT write (R125). -/
def State.takesCommit (s : State) : Bool :=
  decide (s.mode ≠ .halted ∧ s.funds.writes.length ≤ 4 ∧ s.store.occupied.length + commitsIn s.funds.writes < 2 ∧
    s.store.pc < 4294967295)

/-- The admission of a write that is neither a COMMIT nor a slot write (R126). -/
def State.takesOther (s : State) : Bool :=
  decide (s.mode ≠ .halted ∧ s.funds.writes.length < 6)

/-- The Piece Tracker asks for a CLOSE, or a SPOIL from the slot, of a record (R74, R126): in HALTED it is refused and R76 applies,
otherwise it is admitted and the record becomes FINISHING. -/
def requestSlotWrite (r : PieceRecord) (w : StoreWrite) (s : State) : State :=
  if s.mode = .halted then missPiece r .storeFault (r.serial.getD 0) s
  else enqueueWrite w (changeRecord r.tag (fun x => { x with state := .finishing }) s)

/-- The piece count after a commit (R127; log 11 for a count at the end of its range). -/
def nextCount (free pc : Nat) : Nat :=
  if pc < 4294967295 then pc + 1 else (Config.pieceCountPast free).toNat

/-- The lower-numbered empty open-imprint slot is filled (R127). -/
def Store.fill (o : OpenImprint) (st : Store) : Store :=
  match st.open0 with
  | none => { st with open0 := some o }
  | some _ =>
    match st.open1 with
    | none => { st with open1 := some o }
    | some _ => st

/-- Whether a slot holds a serial. -/
def holdsSerial (serial : Nat) (slot : Option OpenImprint) : Bool :=
  match slot with
  | none => false
  | some o => o.serial == serial

/-- The open-imprint slot that holds a serial (R120). -/
def Store.openOf (st : Store) (serial : Nat) : Option OpenImprint :=
  st.occupied.find? (fun o => o.serial == serial)

/-- The open-imprint slot that holds a serial is emptied (R128, R129). -/
def Store.vacate (serial : Nat) (st : Store) : Store :=
  if holdsSerial serial st.open0 then { st with open0 := none }
  else if holdsSerial serial st.open1 then { st with open1 := none }
  else st

/-- A spoil record is appended, or counted in the overflow totals (R121). -/
def Store.append (reason : SpoilReason) (piece : PieceNo) (serial value job dateCode : Option Nat) (st : Store) : Store :=
  if st.spoils.length < 48 ∧ st.sequence < 4294967295 then
    { st with
      sequence := st.sequence + 1
      spoils := st.spoils ++ [{ sequence := st.sequence + 1, reason := reason, piece := piece, serial := serial, value := value,
                                job := job, dateCode := dateCode }] }
  else
    { st with
      overflowCount := saturate 4294967295 (st.overflowCount + 1)
      overflowValue := saturate 281474976710655 (st.overflowValue + value.getD 0) }

/-- A COMMIT on the non-volatile content (R127). -/
def Store.applyCommit (free postage : Nat) (piece : PieceNo) (job dateCode : Nat) (st : Store) : Store :=
  Store.fill { serial := nextCount free st.pc, piece := piece, value := postage, job := job, dateCode := dateCode }
    { st with dr := st.dr - postage, ar := st.ar + postage, pc := nextCount free st.pc }

/-- A SPOIL from a slot on the non-volatile content (R129). -/
def Store.applySpoilSlot (serial : Nat) (reason : SpoilReason) (st : Store) : Store :=
  match st.openOf serial with
  | some o => (st.vacate serial).append reason o.piece (some o.serial) (some o.value) (some o.job) (some o.dateCode)
  | none => st

/-- Every change a write makes to the non-volatile content, made together (R124, R127 to R133). -/
def Store.apply (free : Nat) (w : StoreWrite) (st : Store) : Store :=
  match w with
  | .commit postage piece job dateCode => st.applyCommit free postage piece job dateCode
  | .close serial => st.vacate serial
  | .spoilSlot serial reason => st.applySpoilSlot serial reason
  | .spoilVerdict piece serial value job reason => st.append reason piece (some serial) (some value) (some job) none
  | .spoilUnmatched piece => st.append .verifyUnmatched piece none none none none
  | .credit amount =>
    { st with dr := st.dr + amount, ct := st.ct + amount, credits := saturate 65535 (st.credits + 1) }
  | .drain _ => { st with spoils := st.spoils.drop 1 }

/-- The front write completes and is applied: it leaves the queue and the store is changed (R124). -/
def completeWrite (w : StoreWrite) (rest : List StoreWrite) (s : State) : State :=
  { s with store := s.store.apply s.freeCount w, funds := { s.funds with writes := rest }, freeCount := s.freeCount + 1 }

/-! ## The Verify Unit's requests (R162) -/

/-- The entry of a serial gets a verify state and a verdict reason. -/
def setFranked (serial : Nat) (state : VerifyState) (reason : Option SpoilReason) (s : State) : State :=
  { s with verify := { s.verify with
      recent := s.verify.recent.map (fun e => if e.serial = serial then { e with state := state, reason := reason } else e) } }

/-- The SPOIL from a verdict of an entry. -/
def verdictWrite (e : FrankedEntry) (reason : SpoilReason) : StoreWrite :=
  .spoilVerdict e.piece e.serial e.value e.job reason

/-- The SPOIL from a verdict is asked for (R162). -/
def requestVerdict (e : FrankedEntry) (reason : SpoilReason) (s : State) : State :=
  if s.takesOther then enqueueWrite (verdictWrite e reason) (setFranked e.serial .spoiling (some reason) s)
  else setFranked e.serial .spoilPending (some reason) s

/-- A piece number waits in the unmatched list, or is given up when the list holds 4 (R162, R163). -/
def holdUnmatched (p : PieceNo) (s : State) : State :=
  if s.verify.unmatched.length < 4 then
    { s with verify := { s.verify with unmatched := s.verify.unmatched ++ [p] } }
  else s

/-- The SPOIL unmatched is asked for (R162). -/
def requestUnmatched (p : PieceNo) (s : State) : State :=
  if s.takesOther then enqueueWrite (.spoilUnmatched p) s else holdUnmatched p s

/-- One waiting spoil is asked for again; none when nothing waits or the request is refused (R162). -/
def retryOne (s : State) : Option State :=
  if s.takesOther then
    match s.verify.recent.find? (fun e => e.state == .spoilPending) with
    | some e => some (requestVerdict e (e.reason.getD .unreadable) s)
    | none =>
      match s.verify.unmatched with
      | p :: rest => some (enqueueWrite (.spoilUnmatched p) { s with verify := { s.verify with unmatched := rest } })
      | [] => none
  else none

/-- The waiting spoils are asked for again, one at a time, until one is refused or none waits (R162). -/
def retryWaiting : Nat → State → State
  | 0, s => s
  | n + 1, s =>
    match retryOne s with
    | some t => retryWaiting n t
    | none => s

/-- The notice of an open place, when a completion leaves the queue with fewer than 6 writes (R126). Each request admitted fills a
place, so six turns are enough (R162). -/
def placeNotice (s : State) : State :=
  if s.funds.writes.length < 6 then retryWaiting 6 s else s

/-! ## Messages to the engine (R147) -/

/-- A message joins the send queue. R147 shows that the queue does not fill; a message given to a full one is not held (log 17). -/
def sendEngine (m : EngineMessage) (s : State) : State :=
  if s.imprint.sendQueue.length < 8 then
    { s with imprint := { s.imprint with sendQueue := s.imprint.sendQueue ++ [m] } }
  else s

/-! ## Answers (R167) -/

/-- The octets of answer data: those R171 gives a figure, none for no data, and free where no layout is given (log 12). -/
def answerOctets : AnswerData → Nat
  | .nothing => 0
  | .figure _ octets => octets
  | d => Config.answerOctets d

/-- An answer, its alert marks as the alert lines stand (R167, R172; log 14). -/
def answer (v : Verdict) (further : Further) (d : AnswerData) (s : State) : State :=
  { s with out := { s.out with
      answer := some { verdict := v, urgent := urgentLine s.port.events, routine := routineLine s.port.events,
                       further := further, data := d } } }

/-- The answer of a setup command (R167). -/
def answerSetup (v : Verdict) (bad : Option Nat) (s : State) : State :=
  answer v (.setup bad s.mode) .nothing s

/-- The answer of an operation command (R167). -/
def answerOperation (v : Verdict) (s : State) : State :=
  answer v (.operation s.mode s.loop.attach) .nothing s

/-- The answer of a read command (R167). -/
def answerRead (v : Verdict) (d : AnswerData) (s : State) : State :=
  answer v (.read (answerOctets d)) d s

/-- The answer of a store command (R167). -/
def answerStore (v : Verdict) (s : State) : State :=
  answer v (.store s.funds.writes.length) .nothing s

/-! ## Power and reset -/

/-- The store after a reset or a loss of power: the write in progress is applied whole or not at all, and those that wait are not
applied (R136; log 8). -/
def cutStore (s : State) : Store :=
  match s.funds.writes with
  | [] => s.store
  | w :: _ => if Config.cutWriteApplied s.freeCount then s.store.apply s.freeCount w else s.store

/-- The message in course of being sent to the engine is given up at a loss of power or a reset, and `mark` is what the imprint port
then shows. A message is taken to be in course whenever the send queue holds one (DESIGN CHOICE, log 35). -/
def endSending (mark : Sent) (s : State) : Option Sent :=
  if s.imprint.sendQueue = [] then s.out.engineOut else some mark

/-- A message broken off by an earlier loss of power is ended with CUT at the power-up (R147, R157; log 33). -/
def endBroken (shown : Option Sent) : Option Sent :=
  if shown = some .broken then some .cut else shown

/-- Loss of power: the controller stops, the relay falls to bypass, the volatile content is gone (R136; log 7). A message being sent
to the engine is broken off, and its CUT comes with the power-up (DESIGN CHOICE, log 33). -/
def losePower (s : State) : State :=
  { State.reset with
    powered := false
    store := cutStore s
    imprint := { State.reset.imprint with sendQueue := [] }
    out := { s.out with engineOut := endSending .broken s }
    freeCount := s.freeCount + 1
    pending := s.pending }

/-- The relay switching period a reset starts: if the relay was carrying the loop through the controller or was switching (R15). -/
def resetSwitching (l : LoopPort) : Option SwitchCause :=
  if l.relay = .through ∨ l.switching.isSome then some .reset else none

/-- Every block at its reset values, the start-up read begun, one CLEAR in the send queue, the non-volatile content kept (R15, R51,
R79, R81, R97, R136, R157, R164, R174). A message being sent to the engine is ended with CUT, and so is one that a loss of power
broke off (R147, R157); which message is being sent is log 35. -/
def resetHead (s : State) : State :=
  { State.reset with
    loop := { LoopPort.initial with switching := resetSwitching s.loop }
    store := cutStore s
    out := { s.out with engineOut := endBroken (endSending .cut s) }
    freeCount := s.freeCount + 1
    pending := s.pending }

end Sys2Proof.Machine
end

