-- ==== Sys2Proof/Machine/Banks.lean ====
section
/-! DEFINITION. The Rate Store (chapter 5): bank content, LOAD_BANK_BLOCK, COMMIT_BANK, the bank a piece is bound to. -/

namespace Sys2Proof.Machine

/-! ## Content (R82 to R84) -/

/-- The header of the blank bank (R82). -/
def blankHeader : BankHeader :=
  { generation := 0, valueCeiling := 0, settleMargin := 0, divisor := 1, defaultZone := 0, letterMax := ⟨0, 0, 0⟩,
    largeLetterMax := ⟨0, 0, 0⟩, minLength := 0, minHeight := 0, aspectLow := 0, aspectHigh := 0, serviceLimit := 0,
    stepLimit := 0, zoneCount := 0 }

/-- An absent descriptor (R82; log 23 for the fields nothing reads). -/
def absentService : ServiceEntry :=
  { present := false, acceptsLetter := false, acceptsLargeLetter := false, acceptsParcel := false, zoned := false, minLevel := 0,
    maxDiscountLevel := 0, firstStep := 0, stepCount := 0, minCharge := 0, nonMachinable := 0, thicknessThreshold := 0,
    thicknessSurcharge := 0, perMille0 := 0, perMille1 := 0, perMille2 := 0, perMille3 := 0 }

/-- The blank step entry (R82). -/
def blankStep : StepEntry :=
  { limit := 0, grain := .fine, basePrice := 0, zoneAdd := 0 }

/-- The blank zone-map entry (R82). -/
def blankZone : ZoneEntry :=
  { count := 0, digits := [0, 0, 0, 0, 0, 0, 0, 0], zone := 0 }

/-- The blank bank (R82). -/
def blankBank : Bank :=
  { header := blankHeader, services := List.replicate 32 absentService, steps := List.replicate 128 blankStep,
    zones := List.replicate 256 blankZone }

/-- The descriptor at an index (R82). -/
def Bank.service (b : Bank) (i : Nat) : ServiceEntry :=
  b.services.getD i absentService

/-- The step entry at an index (R82). -/
def Bank.step (b : Bank) (i : Nat) : StepEntry :=
  b.steps.getD i blankStep

/-- The zone-map entry at an index (R82). -/
def Bank.zone (b : Bank) (i : Nat) : ZoneEntry :=
  b.zones.getD i blankZone

/-- The content of a slot, the blank bank where it has none. -/
def BankSlot.bank (b : BankSlot) : Bank :=
  b.content.getD blankBank

/-- The expanded limit of a step entry (R84). -/
def expandedLimit (e : StepEntry) : Nat :=
  match e.grain with
  | .fine => e.limit
  | .coarse => e.limit * 10 + 9

/-- The steps of a descriptor, from first to last, with their indexes (R83). -/
def Bank.run (b : Bank) (d : ServiceEntry) : List (Nat × StepEntry) :=
  (List.range d.stepCount).map (fun k => (d.firstStep + k, b.step (d.firstStep + k)))

/-- The indexes of the present descriptors in use (R83). -/
def Bank.servicesInUse (b : Bank) : List Nat :=
  (List.range (b.header.serviceLimit + 1)).filter (fun i => decide (i ≠ 0) && (b.service i).present)

/-- The zone-map entries in use, with their indexes (R83). -/
def Bank.zonesInUse (b : Bank) : List (Nat × ZoneEntry) :=
  ((List.range b.header.zoneCount).map (fun i => (i, b.zone i))).filter
    (fun x => decide (1 ≤ x.2.count ∧ x.2.count ≤ 8))

/-! ## Loading (R85, R86) -/

/-- The held range of the header fields (R82). -/
def headerHeld (h : BankHeader) : Bool :=
  decide (h.generation ≤ 65535 ∧ h.valueCeiling ≤ 99999999 ∧ h.settleMargin ≤ 500 ∧ 1 ≤ h.divisor ∧ h.divisor ≤ 65535 ∧
    h.defaultZone ≤ 255 ∧ h.letterMax.length ≤ 1023 ∧ h.letterMax.height ≤ 1023 ∧ h.letterMax.thickness ≤ 255 ∧
    h.largeLetterMax.length ≤ 1023 ∧ h.largeLetterMax.height ≤ 1023 ∧ h.largeLetterMax.thickness ≤ 255 ∧ h.minLength ≤ 1023 ∧
    h.minHeight ≤ 1023 ∧ h.aspectLow ≤ 255 ∧ h.aspectHigh ≤ 255 ∧ h.serviceLimit ≤ 255 ∧ h.stepLimit ≤ 255 ∧ h.zoneCount ≤ 256)

/-- The held range of a present descriptor's fields (R82). For an absent one only the present field is tested (R86).
The present, zoned and accepted-shape fields cannot lie outside their sets (log 27). -/
def serviceHeld (e : ServiceEntry) : Bool :=
  !e.present ||
    decide (e.minLevel ≤ 3 ∧ e.maxDiscountLevel ≤ 3 ∧ e.firstStep ≤ 255 ∧ 1 ≤ e.stepCount ∧ e.stepCount ≤ 8 ∧
      e.minCharge ≤ 99999999 ∧ e.nonMachinable ≤ 65535 ∧ e.thicknessThreshold ≤ 255 ∧ e.thicknessSurcharge ≤ 65535 ∧
      e.perMille0 ≤ 65535 ∧ e.perMille1 ≤ 65535 ∧ e.perMille2 ≤ 65535 ∧ e.perMille3 ≤ 65535)

/-- The held range of a step entry's fields (R82). The grain cannot lie outside its set (log 27). -/
def stepHeld (e : StepEntry) : Bool :=
  decide (e.limit ≤ 32767 ∧ e.basePrice ≤ 16777215 ∧ e.zoneAdd ≤ 65535)

/-- The held range of a zone-map entry's fields: the digits its count calls for are given, each 0 to 9 (R82, R86). -/
def zoneHeld (e : ZoneEntry) : Bool :=
  decide (e.count ≤ 8 ∧ e.zone ≤ 255 ∧ e.count ≤ e.digits.length) && (e.digits.take e.count).all (fun d => decide (d ≤ 9))

/-- The tests of R86 on the part, the index and the fields. -/
def partGood (index : Nat) : BankPart → Bool
  | .header h => headerHeld h
  | .service e => decide (1 ≤ index ∧ index ≤ 31) && serviceHeld e
  | .step e => decide (index ≤ 127) && stepHeld e
  | .zone e => decide (index ≤ 255) && zoneHeld e
  | .other _ => false

/-- A zone-map entry as it is written: digit places beyond the digit count are 0 (R86). -/
def writtenZone (e : ZoneEntry) : ZoneEntry :=
  { e with digits := e.digits.take e.count ++ List.replicate (8 - e.count) 0 }

/-- A bank with the entry of a part at an index replaced whole (R85). The index is ignored for the header. -/
def Bank.write (b : Bank) (index : Nat) : BankPart → Bank
  | .header h => { b with header := h }
  | .service e => { b with services := b.services.set index e }
  | .step e => { b with steps := b.steps.set index e }
  | .zone e => { b with zones := b.zones.set index (writtenZone e) }
  | .other _ => b

/-- A slot number of a command. -/
def slotOf : Nat → Option SlotNo
  | 0 => some .zero
  | 1 => some .one
  | _ => none

/-- A slot with an entry written into it: EMPTY begins from the blank bank, LOADING and READY keep their content (R85). -/
def BankSlot.load (b : BankSlot) (index : Nat) (part : BankPart) : BankSlot :=
  { b with state := .loading, content := some ((if b.state = .empty then blankBank else b.bank).write index part) }

/-! ## The checks of a commit (R87) -/

/-- Whether numbers strictly increase. -/
def increasing : List Nat → Bool
  | [] => true
  | [_] => true
  | a :: b :: rest => decide (a < b) && increasing (b :: rest)

/-- Check 3 for one descriptor. -/
def stepRangeGood (b : Bank) (d : ServiceEntry) : Bool :=
  decide (d.firstStep + d.stepCount - 1 ≤ b.header.stepLimit)

/-- Check 4 for one descriptor. -/
def stepOrderGood (b : Bank) (d : ServiceEntry) : Bool :=
  increasing ((b.run d).map (fun x => expandedLimit x.2))

/-- Check 5 for one descriptor. -/
def chargeGood (resolution : Nat) (b : Bank) (d : ServiceEntry) : Bool :=
  decide (d.minCharge % resolution = 0 ∧ d.minCharge ≤ b.header.valueCeiling)

/-- Check 6 for one descriptor. -/
def perMilleGood (d : ServiceEntry) : Bool :=
  decide (d.perMille0 ≤ 1000 ∧ d.perMille1 ≤ 1000 ∧ d.perMille2 ≤ 1000 ∧ d.perMille3 ≤ 1000)

/-- The first descriptor in use that fails a check, in increasing index. -/
def firstFailing (b : Bank) (good : ServiceEntry → Bool) : Option Nat :=
  b.servicesInUse.find? (fun i => !good (b.service i))

/-- Two zone-map entries with the same digit count and the same digits. -/
def sameDigits (x y : ZoneEntry) : Bool :=
  x.count == y.count && x.digits.take x.count == y.digits.take y.count

/-- Check 7: the higher index of the first pair alike, pairs in increasing order of their higher index. -/
def firstDuplicate : List (Nat × ZoneEntry) → List (Nat × ZoneEntry) → Option Nat
  | _, [] => none
  | seen, x :: rest => if seen.any (fun y => sameDigits y.2 x.2) then some x.1 else firstDuplicate (x :: seen) rest

/-- Checks 3, 4, 5, 6, 7 and 8 in order, after check 2; the code and the index of the first to fail. -/
def entryChecks (resolution : Nat) (b : Bank) : Option (RefusalCode × Option Nat) :=
  match firstFailing b (stepRangeGood b) with
  | some i => some (.stepRange, some i)
  | none =>
  match firstFailing b (stepOrderGood b) with
  | some i => some (.stepOrder, some i)
  | none =>
  if b.header.valueCeiling % resolution ≠ 0 then some (.bankCharge, none) else
  match firstFailing b (chargeGood resolution b) with
  | some i => some (.bankCharge, some i)
  | none =>
  match firstFailing b perMilleGood with
  | some i => some (.perMille, some i)
  | none =>
  match firstDuplicate [] b.zonesInUse with
  | some i => some (.zoneDuplicate, some i)
  | none =>
  if 15 < b.header.defaultZone then some (.zoneRange, none) else
  match b.zonesInUse.find? (fun x => decide (15 < x.2.zone)) with
  | some x => some (.zoneRange, some x.1)
  | none => none

/-- The checks of R87 on a slot in order: none when every one passes. -/
def commitChecks (resolution : Nat) (slot : BankSlot) : Option (RefusalCode × Option Nat) :=
  if slot.state ≠ .loading then some (.notLoading, none)
  else if 31 < slot.bank.header.serviceLimit ∨ 127 < slot.bank.header.stepLimit then some (.bankLimits, none)
  else entryChecks resolution slot.bank

/-! ## The ACTIVE slot, commit and switch (R88 to R93) -/

/-- The other slot. -/
def SlotNo.other : SlotNo → SlotNo
  | .zero => .one
  | .one => .zero

/-- The ACTIVE slot, of which there is at most one (R80). -/
def RateStore.active (b : RateStore) : Option SlotNo :=
  if b.slot0.state = .active then some .zero else if b.slot1.state = .active then some .one else none

/-- The READY slot of a generation (R92). -/
def RateStore.readyOf (b : RateStore) (generation : Nat) : Option SlotNo :=
  if b.slot0.state = .ready ∧ b.slot0.generation = generation then some .zero
  else if b.slot1.state = .ready ∧ b.slot1.generation = generation then some .one
  else none

/-- An accepted commit (R88): READY beside an ACTIVE slot, otherwise ACTIVE at once with BANK_SWITCHED and the mark cleared. -/
def acceptCommit (n : SlotNo) (s : State) : State :=
  let slot := s.rates.slot n
  let gen := slot.bank.header.generation
  if (s.rates.slot n.other).state = .active then
    { s with rates := s.rates.setSlot n { slot with state := .ready, generation := gen } }
  else
    raise .bankSwitched
      { s with rates := { s.rates.setSlot n { slot with state := .active, generation := gen } with notReady := false } }

/-- A slot that leaves ACTIVE at a switch (R92): RETIRING, or EMPTY when no piece is bound to it. -/
def BankSlot.leaveActive (b : BankSlot) : BankSlot :=
  if b.state = .active then (if b.bound = 0 then BankSlot.blank else { b with state := .retiring }) else b

/-- The switch is carried out to a READY slot (case 1 of R92). -/
def carryOutSwitch (n : SlotNo) (s : State) : State :=
  let rates := (s.rates.setSlot n.other (s.rates.slot n.other).leaveActive).setSlot n
    { s.rates.slot n with state := .active }
  raise .bankSwitched { s with rates := { rates with switchPoint := none, notReady := false } }

/-- A piece is bound to a slot (R90, R92, R94). -/
def bindTo (n : SlotNo) (s : State) : State × Option Binding :=
  let slot := s.rates.slot n
  ({ s with rates := s.rates.setSlot n { slot with bound := slot.bound + 1 } },
    some { slot := n, generation := slot.generation })

/-- There is no bank for the piece (R93). -/
def noBank (s : State) : State × Option Binding :=
  if s.rates.notReady then (s, none)
  else (raise .bankNotReady { s with rates := { s.rates with notReady := true } }, none)

/-- The answer without regard to a switch point (R90). -/
def askActive (s : State) : State × Option Binding :=
  match s.rates.active with
  | some n => bindTo n s
  | none => noBank s

/-- Whether the ACTIVE slot has a generation (case 2 of R92). -/
def RateStore.activeHas (b : RateStore) (generation : Nat) : Option SlotNo :=
  match b.active with
  | some n => if (b.slot n).generation = generation then some n else none
  | none => none

/-- The bank for a piece, and the binding (R90 to R93). -/
def askBank (p : PieceNo) (s : State) : State × Option Binding :=
  match s.rates.switchPoint with
  | none => askActive s
  | some point =>
    if atOrAfter p point.first then
      match s.rates.readyOf point.generation with
      | some n => bindTo n (carryOutSwitch n s)
      | none =>
        match s.rates.activeHas point.generation with
        | some n => bindTo n { s with rates := { s.rates with switchPoint := none } }
        | none => noBank s
    else askActive s

/-- What READ_BANK_STATE says of a slot (R96). -/
def BankSlot.view (b : BankSlot) : SlotView :=
  { state := b.state
    generation :=
      match b.state with
      | .empty => 0
      | .loading => b.bank.header.generation
      | .ready | .active | .retiring => b.generation
    bound := b.bound }

end Sys2Proof.Machine
end

