-- ==== Sys2Proof/Machine/Intake.lean ====
section
/-! DEFINITION. The Intake Unit (chapter 3): the take decision, the passing list, the job table. -/

namespace Sys2Proof.Machine

/-! ## Records at the take (R35, R39, R58, R62) -/

/-- Defaults at the cutoff (R62): flags for the absent parts, and READY. No part is written. -/
def defaultsInto (r : PieceRecord) : PieceRecord :=
  { r with
    state := .ready
    flags := { r.flags with
      weightDefaulted := r.flags.weightDefaulted || r.measure.isNone
      dimsDefaulted := r.flags.dimsDefaulted || r.measure.isNone
      addressDefaulted := r.flags.addressDefaulted || r.address.isNone } }

/-- The record of a taken original (R35). A record whose cutoff is at its reference has it taken at the creation (R58). -/
def originalRecord (n : Notice) (b : Binding) (s : State) : PieceRecord :=
  let r : PieceRecord :=
    { tag := s.tracker.nextTag, piece := n.piece, job := n.job, reference := s.tracker.position, binding := b, measure := none,
      address := none, rating := none, serial := none, state := .taken, flags := ConditionFlags.none }
  if reached s.tracker.position (s.checkpoints r).cutoff then defaultsInto r else r

/-- The record of a taken release (R39): READY when the notice carried both blocks. -/
def releasedRecord (n : Notice) (b : Binding) (reference : Position) (s : State) : PieceRecord :=
  { tag := s.tracker.nextTag, piece := n.piece, job := n.job, reference := reference, binding := b, measure := n.measure,
    address := n.address, rating := none, serial := none,
    state := if n.measure.isSome ∧ n.address.isSome then .ready else .taken,
    flags := { ConditionFlags.none with releaseTaken := true } }

/-- A record joins the table in reference order (R54, R58). -/
def addRecord (r : PieceRecord) (s : State) : State :=
  { s with tracker := { s.tracker with pieces := insertRecord r s.tracker.pieces, nextTag := s.tracker.nextTag + 1 } }

/-- The passing list loses the entry of a piece number (R35, R37, R39). -/
def dropPassing (p : PieceNo) (s : State) : State :=
  { s with intake := { s.intake with passing := s.intake.passing.filter (fun e => e.piece != p) } }

/-- A take: the record is created, any passing-list entry goes, and the feed-hold rule sees the new count (R35, R39, R42). -/
def take (r : PieceRecord) (s : State) : State :=
  feedHoldRule (dropPassing r.piece (addRecord r s))

/-! ## The passing list (R36, R37) -/

/-- A list cut to its newest `limit` entries. -/
def keepNewest {α : Type} (limit : Nat) (l : List α) : List α :=
  l.drop (l.length - limit)

/-- An untaken original enters the passing list (R36, R37). -/
def enterPassing (n : Notice) (s : State) : State :=
  { s with intake := { s.intake with
      passing := keepNewest 7 (s.intake.passing.filter (fun e => e.piece != n.piece)) ++
        [{ piece := n.piece, job := n.job, reference := s.tracker.position }] } }

/-! ## The decision (R33 to R41) -/

/-- The tests on the count, the spoil list and the free funds that both decisions make (R34, R38). -/
def roomForPiece (s : State) : Bool :=
  decide (s.tracker.pieces.length < s.conf.takeLimit ∧ s.store.spoils.length < 40) && !s.fundsBelow s.conf.takeFloor

/-- Tests 1 to 6 of R34. -/
def originalPasses (n : Notice) (s : State) : Bool :=
  decide (s.mode = .running ∧ n.takeStation = 0) && s.jobIsOpen n.job && roomForPiece s

/-- The passing-list entry of a piece number (R38). -/
def State.passing? (s : State) (p : PieceNo) : Option PassingEntry :=
  s.intake.passing.find? (fun e => e.piece == p)

/-- Tests 1, 2 and 4 to 9 of R38 against the entry that test 3 found. -/
def releasePasses (n : Notice) (e : PassingEntry) (s : State) : Bool :=
  decide (s.mode = .running ∧ n.takeStation = 0 ∧ e.job = n.job) &&
    !reached s.tracker.position (checkpointsOf s.conf e.reference).cutoff && s.jobIsOpen n.job && roomForPiece s

/-- The decision on an original that is no duplicate, and whether it is a take (R34 to R36). -/
def decideOriginal (n : Notice) (s : State) : State × Bool :=
  if originalPasses n s then
    match askBank n.piece s with
    | (t, some b) => (take (originalRecord n b t) t, true)
    | (t, none) => (enterPassing n t, false)
  else (enterPassing n s, false)

/-- The decision on a release that is no duplicate, and whether it is a take (R38 to R40). -/
def decideReleased (n : Notice) (s : State) : State × Bool :=
  match s.passing? n.piece with
  | none => (s, false)
  | some e =>
    if releasePasses n e s then
      match askBank n.piece s with
      | (t, some b) => (take (releasedRecord n b e.reference t) t, true)
      | (t, none) => (t, false)
    else (s, false)

/-- A duplicate notice (R33). -/
def countDuplicate (s : State) : State :=
  { s with intake := { s.intake with duplicates := saturate 65535 (s.intake.duplicates + 1) } }

/-- The decision on a notice handed to the Intake Unit, and its answer (R33 to R41). -/
def decideNotice (n : Notice) (s : State) : State × Bool :=
  if (s.piece? n.piece).isSome then (countDuplicate s, false)
  else if n.releasedBy = 0 then decideOriginal n s
  else decideReleased n s

/-! ## The job table (R29 to R32) -/

/-- The record of a job number is written, its state OPEN. -/
def jobWritten (number : Nat) (params : JobParams) : JobRecord :=
  { number := number, params := params, isOpen := true }

/-- The oldest CLOSED record without pieces in the table, by its number (R30). -/
def reusableJob (s : State) : Option Nat :=
  s.intake.closing.find? (fun n => !s.jobHasPieces n)

/-- A job number in the table again (R31). -/
def reopenJob (number : Nat) (params : JobParams) (s : State) : State :=
  if s.jobHasPieces number then raise .jobConflict s
  else { s with intake := { s.intake with
      jobs := s.intake.jobs.map (fun j => if j.number = number then jobWritten number params else j)
      closing := s.intake.closing.filter (fun n => n != number) } }

/-- A job number new to the table (R30; log 16). -/
def placeJob (number : Nat) (params : JobParams) (s : State) : State :=
  if s.intake.jobs.length < 4 then
    { s with intake := { s.intake with jobs := s.intake.jobs ++ [jobWritten number params] } }
  else
    match reusableJob s with
    | some old => { s with intake := { s.intake with
        jobs := s.intake.jobs.map (fun j => if j.number = old then jobWritten number params else j)
        closing := s.intake.closing.filter (fun n => n != old) } }
    | none => raise .jobConflict s

/-- A JOB OPEN (R30, R31). -/
def openJob (number : Nat) (params : JobParams) (s : State) : State :=
  match s.job? number with
  | some _ => reopenJob number params s
  | none => placeJob number params s

/-- A job record is set CLOSED and joins the closing order, if it is in the table as OPEN (R32). -/
def markClosed (number : Nat) (s : State) : State :=
  if s.jobIsOpen number then
    { s with intake := { s.intake with
        jobs := s.intake.jobs.map (fun j => if j.number = number then { j with isOpen := false } else j)
        closing := s.intake.closing ++ [number] } }
  else s

/-- A JOB CLOSE (R32), which may meet a held condition AT_JOB_CLOSE (R47). -/
def closeJob (number : Nat) (s : State) : State :=
  if s.intake.quiesce = .atJobClose number then enterQuiescing (markClosed number s) else markClosed number s

end Sys2Proof.Machine
end

