-- ==== Sys2Proof/Machine/Belt.lean ====
section
/-! DEFINITION. The transport encoder and the checkpoints (R52, R53, R62, R69 to R71, R74, R149, R154). -/

namespace Sys2Proof.Machine

/-! ## The encoder (R52) -/

/-- A forward pulse: the position rises by one and wraps. -/
def pulseForward (s : State) : State :=
  { s with tracker := { s.tracker with position := s.tracker.position + 1 } }

/-- ENCODER_PULSE_FORWARD (R52). -/
def execEncoderPulseForward (s : State) : Host.Outcome State Fault Refusal :=
  whenPowered s pulseForward

/-- ENCODER_PULSE_REVERSE (R52): the position is left and BELT_REVERSE is raised. -/
def execEncoderPulseReverse (s : State) : Host.Outcome State Fault Refusal :=
  whenPowered s (raise .beltReverse)

/-! ## Checkpoints -/

/-- A checkpoint event acts on the record of a piece once the checkpoint is reached (R53). -/
def atCheckpoint (p : PieceNo) (which : Checkpoints → Position) (act : PieceRecord → State → State) (s : State) : State :=
  match s.piece? p with
  | none => s
  | some r => if reached s.tracker.position (which (s.checkpoints r)) then act r s else s

/-- The cutoff of a record (R62): defaults in TAKEN, no effect in any other state. -/
def cutoffOf (r : PieceRecord) (s : State) : State :=
  if r.state = .taken then changeRecord r.tag defaultsInto s else s

/-- CUTOFF (R62). -/
def execCutoff (piece : PieceNo) (s : State) : Host.Outcome State Fault Refusal :=
  whenPowered s (atCheckpoint piece Checkpoints.cutoff cutoffOf)

/-- The postage of a record's rating result. -/
def PieceRecord.postage (r : PieceRecord) : Nat :=
  match r.rating with
  | some x => x.postage
  | none => 0

/-- The commit checkpoint in RATED (R69, R70): the COMMIT is admitted and the record COMMITTING, or the pledge is returned and the
piece missed with PATH_BUSY. -/
def commitRated (r : PieceRecord) (s : State) : State :=
  if s.takesCommit then
    enqueueWrite (.commit r.postage r.piece r.job (s.jobParams r.job).dateCode)
      (changeRecord r.tag (fun x => { x with state := .committing }) s)
  else missPiece r .pathBusy 0 (judgeFunds (lowerPledge r.postage s))

/-- The commit checkpoint of a record (R69 to R71). -/
def commitOf (r : PieceRecord) (s : State) : State :=
  match r.state with
  | .rated => commitRated r s
  | .taken | .ready | .rating => missPiece r .ratingLate 0 s
  | .committing | .committed | .finishing => s

/-- COMMIT_CHECKPOINT (R69). -/
def execCommitCheckpoint (piece : PieceNo) (s : State) : Host.Outcome State Fault Refusal :=
  whenPowered s (atCheckpoint piece Checkpoints.commit commitOf)

/-- The print path entry of a serial passes to STRUCK (R142, R149). -/
def strike (serial : Nat) (s : State) : State :=
  { s with imprint := { s.imprint with
      path := s.imprint.path.map (fun e => if e.serial = serial then { e with phase := .struck } else e) } }

/-- The print path entry of a record (R142). -/
def State.pathOf (s : State) (r : PieceRecord) : Option PathEntry :=
  s.imprint.path.find? (fun e => e.tag == r.tag)

/-- The print checkpoint of a record (R149): in COMMITTED, with its entry REQUESTED, the PRINT is given. -/
def printOf (r : PieceRecord) (s : State) : State :=
  match r.state, s.pathOf r with
  | .committed, some e => if e.phase = .requested then sendEngine (.print e.serial) (strike e.serial s) else s
  | .committed, none => s
  | .taken, _ | .ready, _ | .rating, _ | .rated, _ | .committing, _ | .finishing, _ => s

/-- PRINT_CHECKPOINT (R149). -/
def execPrintCheckpoint (piece : PieceNo) (s : State) : Host.Outcome State Fault Refusal :=
  whenPowered s (atCheckpoint piece Checkpoints.print printOf)

/-- The entry of a serial leaves the print path (R142). -/
def dropPath (serial : Nat) (s : State) : State :=
  { s with imprint := { s.imprint with path := s.imprint.path.filter (fun e => e.serial != serial) } }

/-- The result deadline of a record (R154): in COMMITTED the imprint is settled as no result. -/
def deadlineOf (r : PieceRecord) (s : State) : State :=
  match r.state, r.serial with
  | .committed, some serial =>
    requestSlotWrite r (.spoilSlot serial .noResult) (sendEngine (.cancel serial) (dropPath serial s))
  | .committed, none => s
  | .taken, _ | .ready, _ | .rating, _ | .rated, _ | .committing, _ | .finishing, _ => s

/-- RESULT_DEADLINE (R154). -/
def execResultDeadline (piece : PieceNo) (s : State) : Host.Outcome State Fault Refusal :=
  whenPowered s (atCheckpoint piece Checkpoints.deadline deadlineOf)

end Sys2Proof.Machine
end

