-- ==== Sys2Proof/Machine/Engine.lean ====
section
/-! DEFINITION. The imprint port: results from the print engine, discarded messages, messages sent (R147 to R153). -/

namespace Sys2Proof.Machine

/-! ## Results (R150 to R153) -/

/-- The print path entry that carries a serial (R142). -/
def State.pathEntry (s : State) (serial : Nat) : Option PathEntry :=
  s.imprint.path.find? (fun e => e.serial == serial)

/-- A result that no entry carries the serial of (R153). -/
def lateResult (s : State) : State :=
  raise .lateResult s

/-- The imprint of an entry is settled: the entry goes and the slot's closing write is asked for, for its record in COMMITTED
(R74). -/
def settle (e : PathEntry) (w : StoreWrite) (s : State) : State :=
  match s.tagged? e.tag with
  | none => dropPath e.serial s
  | some r => if r.state = .committed then requestSlotWrite r w (dropPath e.serial s) else dropPath e.serial s

/-- An IMPRINT DONE (R150, R151, R153). -/
def resultDone (serial : Nat) (s : State) : State :=
  match s.pathEntry serial with
  | none => lateResult s
  | some e =>
    match e.phase with
    | .struck => settle e (.close serial) s
    | .requested => settle e (.spoilSlot serial .printFailed) (sendEngine (.cancel serial) s)

/-- An IMPRINT FAILED (R152, R153). -/
def resultFailed (serial : Nat) (s : State) : State :=
  match s.pathEntry serial with
  | none => lateResult s
  | some e => settle e (.spoilSlot serial .printFailed) s

/-- A good result by its type (R148). -/
def takeResult (x : EngineResult) (s : State) : State :=
  match x with
  | .done serial => resultDone serial s
  | .failed serial => resultFailed serial s

/-- The receiver of the imprint port is between messages. -/
def endMessage (s : State) : State :=
  { s with imprint := { s.imprint with receiver := .outside } }

/-- IMPRINT_DONE (R150). -/
def execImprintDone (serial : Word32) (s : State) : Host.Outcome State Fault Refusal :=
  whenPowered s fun s => resultDone serial.toNat (endMessage s)

/-- IMPRINT_FAILED (R152). Every engine reason is acted on alike (R148). -/
def execImprintFailed (serial : Word32) (_reason : Byte) (s : State) : Host.Outcome State Fault Refusal :=
  whenPowered s fun s => resultFailed serial.toNat (endMessage s)

/-! ## Reception of other messages (R148) -/

/-- A completed message: acted on when it is good, otherwise discarded without an event. -/
def completeMessage (octets : List Byte) (s : State) : State :=
  match readEngine octets with
  | some x => takeResult x s
  | none => s

/-- One symbol on the imprint port (R148): as on the loop, the longest message having 29 octets. -/
def engineSymbol (sym : Symbol) (s : State) : State :=
  let step := receiveStep 29 s.imprint.receiver sym
  let t := { s with imprint := { s.imprint with receiver := step.1 } }
  match step.2 with
  | .nothing | .abandoned => t
  | .completed octets => completeMessage octets t

/-- What IMPRINT_MESSAGE_DISCARDED brings (R148; log 6). -/
def engineInput (input : EngineInput) (s : State) : State :=
  match input with
  | .abandoned why => { s with imprint := { s.imprint with receiver := receiverAfter why } }
  | .completed octets => completeMessage octets (endMessage s)
  | .symbol sym => engineSymbol sym s

/-- IMPRINT_MESSAGE_DISCARDED (R148). -/
def execImprintMessageDiscarded (input : EngineInput) (s : State) : Host.Outcome State Fault Refusal :=
  whenPowered s (engineInput input)

/-! ## The send queue (R147) -/

/-- The CLOSE of the oldest message is sent and it leaves the queue. -/
def messageSent (s : State) : State :=
  match s.imprint.sendQueue with
  | [] => s
  | m :: rest =>
    { s with
      imprint := { s.imprint with sendQueue := rest }
      out := { s.out with engineOut := some (.whole m.octets) } }

/-- IMPRINT_MESSAGE_SENT (R147). -/
def execImprintMessageSent (s : State) : Host.Outcome State Fault Refusal :=
  whenPowered s messageSent

end Sys2Proof.Machine
end

