-- ==== Sys2Proof/Machine/Reports.lean ====
section
/-! DEFINITION. Measure and address reports at the Piece Tracker (R59 to R61), the switch point (R89) and verdicts at the Verify
Unit (R159 to R162). -/

namespace Sys2Proof.Machine

/-! ## Reports -/

/-- A measure report at a record (R59). -/
def measureInto (m : MeasurePart) (r : PieceRecord) : PieceRecord :=
  match r.state, r.measure with
  | .taken, none => { r with measure := some m, state := if r.address.isSome then .ready else .taken }
  | .taken, some _ | .ready, some _ => { r with measure := some m, flags := { r.flags with dupReport := true } }
  | .ready, none =>
    { r with measure := some m, flags := { r.flags with weightDefaulted := false, dimsDefaulted := false } }
  | .rating, _ | .rated, _ | .committing, _ | .committed, _ | .finishing, _ =>
    { r with flags := { r.flags with lateData := true } }

/-- An address report at a record (R60). -/
def addressInto (a : AddressPart) (r : PieceRecord) : PieceRecord :=
  match r.state, r.address with
  | .taken, none => { r with address := some a, state := if r.measure.isSome then .ready else .taken }
  | .taken, some _ | .ready, some _ => { r with address := some a, flags := { r.flags with dupReport := true } }
  | .ready, none => { r with address := some a, flags := { r.flags with addressDefaulted := false } }
  | .rating, _ | .rated, _ | .committing, _ | .committed, _ | .finishing, _ =>
    { r with flags := { r.flags with lateData := true } }

/-- A report acts on the record of its piece number, and has no effect when there is none (R59 to R61). -/
def reportTo (p : PieceNo) (change : PieceRecord → PieceRecord) (s : State) : State :=
  match s.piece? p with
  | none => s
  | some r => changeRecord r.tag change s

/-! ## The switch point -/

/-- A RATE SWITCH is recorded (R89). -/
def recordSwitch (point : SwitchPoint) (s : State) : State :=
  { s with rates := { s.rates with switchPoint := some point, notReady := false } }

/-! ## Verdicts -/

/-- The spoil reason of a bad verdict; none for GOOD (R160). -/
def verdictReason : VerifyVerdict → Option SpoilReason
  | .good => none
  | .unreadable => some .unreadable
  | .valueMismatch => some .valueMismatch
  | .notSeen => some .notSeen

/-- The newest entry of a piece number (R159). -/
def newestFranked (p : PieceNo) (recent : List FrankedEntry) : Option FrankedEntry :=
  recent.reverse.find? (fun e => e.piece == p)

/-- A matched verdict (R160): only the first verdict on an entry acts. -/
def matchedVerdict (e : FrankedEntry) (v : VerifyVerdict) (s : State) : State :=
  if e.state = .pending then
    match verdictReason v with
    | none => setFranked e.serial .good none s
    | some reason => requestVerdict e reason s
  else s

/-- An unmatched verdict (R161). -/
def unmatchedVerdict (p : PieceNo) (v : VerifyVerdict) (s : State) : State :=
  match verdictReason v with
  | none => s
  | some _ => requestUnmatched p (raise .verifyUnmatched s)

/-- A VERIFY REPORT at the Verify Unit (R159). -/
def takeVerdict (p : PieceNo) (station : Nat) (v : VerifyVerdict) (s : State) : State :=
  if s.isOwn station then
    match newestFranked p s.verify.recent with
    | some e => matchedVerdict e v s
    | none => unmatchedVerdict p v s
  else s

end Sys2Proof.Machine
end

