-- ==== Sys2Proof/Machine/LineIn.lean ====
section
/-! DEFINITION. Symbols and frames on loop-in: reception, disposal in the ring and aside, and the commands of the line frames
(R2 to R8, R14). -/

namespace Sys2Proof.Machine

/-! ## Reception -/

/-- The receiver is deaf while the relay is switching (R12). -/
def State.deaf (s : State) : Bool :=
  s.loop.switching.isSome

/-- The controller stands in the ring (R5); the relay is then through and not switching. -/
def State.inRing (s : State) : Bool :=
  s.loop.attach == .attached || s.loop.attach == .leaving

/-- A symbol is recognised: the IDLE run count and the loop-lost flag (R2, R14). -/
def seeSymbol (sym : Symbol) (s : State) : State :=
  { s with loop := { s.loop with
      lost := false
      idleRun := match sym with
        | .idle => saturate 255 (s.loop.idleRun + 1)
        | .opener | .closer | .cut | .octet _ => 0 } }

/-- Reception of a whole frame ends (log 4). A frame in reception that is not the beginning of this one was abandoned by this
one's OPEN and is counted (R2). -/
def endReception (octets : List Byte) (s : State) : State :=
  let t := { s with loop := { s.loop with receiver := .outside, idleRun := 0, lost := false } }
  match s.loop.receiver with
  | .receiving buffer => if buffer.isPrefixOf octets then t else countBad t
  | .outside | .ignoring => t

/-! ## Disposal (R5 to R8) -/

/-- A frame joins the forward queue (R6). -/
def enqueueForward (f : Frame) (held : Bool) (s : State) : State :=
  { s with loop := { s.loop with forward := s.loop.forward ++ [{ frame := f, held := held }] } }

/-- The held notice is released, its take field rewritten on a take (R7). -/
def releaseHeld (took : Bool) (s : State) : State :=
  { s with loop := { s.loop with
      forward := s.loop.forward.map (fun e =>
        if e.held then
          { frame := if took then { e.frame with body := writeTake e.frame.body s.conf.station } else e.frame, held := false }
        else e) } }

/-- A message other than a notice at the block that owns its kind (R5). -/
def hand (m : LineMessage) (s : State) : State :=
  match m with
  | .notice _ => s
  | .measureReport p part => reportTo p (measureInto part) s
  | .addressReport p part => reportTo p (addressInto part) s
  | .jobOpen job params => openJob job params s
  | .jobClose job => closeJob job s
  | .rateSwitch point => recordSwitch point s
  | .forwardedOnly => s
  | .verifyReport p station v => takeVerdict p station v s

/-- The decision on a notice in the ring: it waits held until it is answered (R7). -/
def decideHeld (f : Frame) (n : Notice) (s : State) : State :=
  let answered := decideNotice n (enqueueForward f true s)
  releaseHeld answered.2 answered.1

/-- Tests 4 to 6 of R5 on a frame whose hop count is already decremented. -/
def forwardAndHand (f : Frame) (s : State) : State :=
  match f.reading with
  | .unknownKind => enqueueForward f false s
  | .malformed => countBad (enqueueForward f false s)
  | .good (.notice n) => decideHeld f n s
  | .good m => hand m (enqueueForward f false s)

/-- A good frame in the ring (R5). -/
def disposeInRing (f : Frame) (s : State) : State :=
  if s.isOwn f.origin.toNat then s
  else if f.hop.toNat = 1 then s
  else if s.loop.forward.length < 4 then arbitrate (forwardAndHand { f with hop := f.hop - 1 } s)
  else raise .frameDrop s

/-- A good frame while aside (R8). -/
def disposeAside (f : Frame) (s : State) : State :=
  if s.isOwn f.origin.toNat then s
  else if f.hop.toNat = 1 then s
  else
    match f.reading with
    | .unknownKind => s
    | .malformed => countBad s
    | .good (.notice n) => (decideNotice n s).1
    | .good m => hand m s

/-- A good frame by the attach state (R5, R8). -/
def dispose (f : Frame) (s : State) : State :=
  if s.inRing then disposeInRing f s else disposeAside f s

/-- The octets of a completed frame are checked and the frame is disposed of (R3). -/
def completeOctets (octets : List Byte) (s : State) : State :=
  if badOctets octets then countBad s else dispose (frameOf octets) s

/-- A whole frame arrives, its length octet and its check right (R2, R3). -/
def receiveFrame (f : Frame) (s : State) : State :=
  if s.deaf then s
  else if f.bad then countBad (endReception f.octets s)
  else dispose f (endReception f.octets s)

/-- One symbol arrives on loop-in (R2). -/
def receiveSymbol (sym : Symbol) (s : State) : State :=
  if s.deaf then s
  else
    let step := receiveStep 46 s.loop.receiver sym
    let seen := seeSymbol sym s
    let t := { seen with loop := { seen.loop with receiver := step.1 } }
    match step.2 with
    | .nothing => t
    | .abandoned => countBad t
    | .completed octets => completeOctets octets t

/-- A frame row of a kind. -/
def lineFrame (kind : Byte) (f : LineFrame) : Frame :=
  { kind := kind, origin := f.origin, hop := f.hop, body := f.body }

/-! ## The commands -/

/-- The IDLE run count after a frame in reception is abandoned: it was 0, and an IDLE adds one (R2). -/
def runAfter : AbandonCause → Nat
  | .idle => 1
  | .cut | .secondOpen | .tooLong => 0

/-- The frame in reception is abandoned and counted (R2; log 28). The row stands for a whole frame, from its OPEN to what abandons
it, so it counts one frame whether or not the receiver already held a part of it (DESIGN CHOICE, log 32). -/
def abandonFrame (why : AbandonCause) (s : State) : State :=
  if s.deaf then s
  else countBad { s with loop := { s.loop with receiver := receiverAfter why, idleRun := runAfter why, lost := false } }

/-- FRAME_ABANDONED (R2). -/
def execFrameAbandoned (why : AbandonCause) (s : State) : Host.Outcome State Fault Refusal :=
  whenPowered s (abandonFrame why)

/-- The octets between OPEN and CLOSE of a completed frame (R3). -/
def receiveOctets (octets : List Byte) (s : State) : State :=
  if s.deaf then s else completeOctets octets (endReception octets s)

/-- BAD_FRAME (R3). -/
def execBadFrame (octets : List Byte) (s : State) : Host.Outcome State Fault Refusal :=
  whenPowered s (receiveOctets octets)

/-- UNKNOWN_KIND_FRAME (R5, R8). -/
def execUnknownKindFrame (kind : Byte) (f : LineFrame) (s : State) : Host.Outcome State Fault Refusal :=
  whenPowered s (receiveFrame (lineFrame kind f))

/-- PIECE_NOTICE (R33 to R36). -/
def execPieceNotice (f : LineFrame) (s : State) : Host.Outcome State Fault Refusal :=
  whenPowered s (receiveFrame (lineFrame (kindCode .pieceNotice) f))

/-- RELEASED_NOTICE (R33, R38 to R40); the released-by octet tells it from an original (R19; log 5). -/
def execReleasedNotice (f : LineFrame) (s : State) : Host.Outcome State Fault Refusal :=
  whenPowered s (receiveFrame (lineFrame (kindCode .pieceNotice) f))

/-- MEASURE_REPORT (R59). -/
def execMeasureReport (f : LineFrame) (s : State) : Host.Outcome State Fault Refusal :=
  whenPowered s (receiveFrame (lineFrame (kindCode .measureReport) f))

/-- ADDRESS_REPORT (R60). -/
def execAddressReport (f : LineFrame) (s : State) : Host.Outcome State Fault Refusal :=
  whenPowered s (receiveFrame (lineFrame (kindCode .addressReport) f))

/-- JOB_OPEN (R30, R31). -/
def execJobOpen (f : LineFrame) (s : State) : Host.Outcome State Fault Refusal :=
  whenPowered s (receiveFrame (lineFrame (kindCode .jobOpen) f))

/-- JOB_CLOSE (R32, R47). -/
def execJobClose (f : LineFrame) (s : State) : Host.Outcome State Fault Refusal :=
  whenPowered s (receiveFrame (lineFrame (kindCode .jobClose) f))

/-- RATE_SWITCH (R89). -/
def execRateSwitch (f : LineFrame) (s : State) : Host.Outcome State Fault Refusal :=
  whenPowered s (receiveFrame (lineFrame (kindCode .rateSwitch) f))

/-- FEED_HOLD (R24): forwarded only. -/
def execFeedHold (f : LineFrame) (s : State) : Host.Outcome State Fault Refusal :=
  whenPowered s (receiveFrame (lineFrame (kindCode .feedHold) f))

/-- FEED_RESUME (R24): forwarded only. -/
def execFeedResume (f : LineFrame) (s : State) : Host.Outcome State Fault Refusal :=
  whenPowered s (receiveFrame (lineFrame (kindCode .feedResume) f))

/-- FRANK_REPORT (R25): forwarded only. -/
def execFrankReport (f : LineFrame) (s : State) : Host.Outcome State Fault Refusal :=
  whenPowered s (receiveFrame (lineFrame (kindCode .frankReport) f))

/-- VERIFY_REPORT (R159 to R162). -/
def execVerifyReport (f : LineFrame) (s : State) : Host.Outcome State Fault Refusal :=
  whenPowered s (receiveFrame (lineFrame (kindCode .verifyReport) f))

/-- IDLE_RECEIVED (R2): one symbol (log 4). -/
def execIdleReceived (sym : Symbol) (s : State) : Host.Outcome State Fault Refusal :=
  whenPowered s (receiveSymbol sym)

/-- The loop is declared lost (R14): nothing while the relay switches, and no further loss before symbols return. -/
def loseLoop (s : State) : State :=
  if s.deaf ∨ s.loop.lost = true then s
  else raise .loopLost { s with loop := { s.loop with receiver := .outside, idleRun := 0, lost := true } }

/-- LOOP_LOST (R14). -/
def execLoopLost (s : State) : Host.Outcome State Fault Refusal :=
  whenPowered s loseLoop

/-- LOOP_RETURN (R14): the first symbol after a loss clears the loop-lost flag, as every recognised symbol does (log 28). -/
def execLoopReturn (sym : Symbol) (s : State) : Host.Outcome State Fault Refusal :=
  whenPowered s (receiveSymbol sym)

end Sys2Proof.Machine
end

