-- ==== Sys2Proof/Machine/Loop.lean ====
section
/-! DEFINITION. The outgoing link and the attach changes (R6, R9 to R13). -/

namespace Sys2Proof.Machine

/-- The CLOSE of the forwarded frame in progress is sent: it leaves the queue and the arbiter chooses (R6, R10). The row takes in the
IDLE that follows the frame, so the choice is made at once (DESIGN CHOICE, log 34). -/
def forwardSent (s : State) : State :=
  match s.loop.transmitter, s.loop.forward with
  | .sendingForward, e :: rest =>
    arbitrate
      { s with
        loop := { s.loop with forward := rest, transmitter := .idle }
        out := { s.out with loopOut := some (.whole e.frame.octets) } }
  | .sendingForward, [] | .sendingOwn, _ | .idle, _ => s

/-- The CLOSE of the own frame in progress is sent: it leaves the queue and the arbiter chooses (R9, R10). The row takes in the IDLE
that follows the frame, so the choice is made at once (DESIGN CHOICE, log 34). -/
def ownSent (s : State) : State :=
  match s.loop.transmitter, s.loop.own with
  | .sendingOwn, f :: rest =>
    arbitrate
      { s with
        loop := { s.loop with own := rest, transmitter := .idle }
        out := { s.out with loopOut := some (.whole f.octets) } }
  | .sendingOwn, [] | .sendingForward, _ | .idle, _ => s

/-- FORWARD_FRAME_SENT (R6). -/
def execForwardFrameSent (s : State) : Host.Outcome State Fault Refusal :=
  whenPowered s forwardSent

/-- OWN_FRAME_SENT (R9). -/
def execOwnFrameSent (s : State) : Host.Outcome State Fault Refusal :=
  whenPowered s ownSent

/-- The wait of JOINING ends with 12 IDLE symbols in a row: the relay is driven into the ring and the switching period begins (R11,
R12). A frame in reception is discarded without being counted. -/
def joinSwitchStart (s : State) : State :=
  if s.loop.attach = .joining ∧ s.loop.switching = none ∧ 12 ≤ s.loop.idleRun then
    { s with loop := { s.loop with relay := .through, switching := some .join, receiver := .outside } }
  else s

/-- JOIN_SWITCH_START (R11). -/
def execJoinSwitchStart (s : State) : Host.Outcome State Fault Refusal :=
  whenPowered s joinSwitchStart

/-- The head mode at the attach change of JOIN: RUNNING with no quiesce condition, unless it is HALTED (R11, R45, R169). -/
def beginRunning (s : State) : State :=
  if s.mode = .halted then s else { s with mode := .running, intake := { s.intake with quiesce := .none } }

/-- The join switching period is over (R11): ATTACHED, one CUT sent, RUNNING, ATTACH_CHANGED. -/
def joinSwitchComplete (s : State) : State :=
  if s.loop.switching = some .join then
    raise .attachChanged
      (beginRunning
        { s with
          loop := { s.loop with switching := none, attach := .attached, receiver := .outside }
          out := { s.out with loopOut := some .cut } })
  else s

/-- JOIN_SWITCH_COMPLETE (R11). -/
def execJoinSwitchComplete (s : State) : Host.Outcome State Fault Refusal :=
  whenPowered s joinSwitchComplete

/-- The conditions of R13 for the switch out of the ring. -/
def State.mayLeave (s : State) : Bool :=
  decide (s.loop.attach = .leaving ∧ s.loop.switching = none ∧ s.loop.forward = [] ∧ s.loop.own = [] ∧
    s.loop.transmitter = .idle ∧ 12 ≤ s.loop.idleRun)

/-- The switch out of the ring begins (R12, R13). -/
def leaveSwitchStart (s : State) : State :=
  if s.mayLeave then
    { s with loop := { s.loop with relay := .bypass, switching := some .leave, receiver := .outside } }
  else s

/-- LEAVE_SWITCH_START (R13). -/
def execLeaveSwitchStart (s : State) : Host.Outcome State Fault Refusal :=
  whenPowered s leaveSwitchStart

/-- The leave switching period is over (R13): BYPASS, STANDBY unless HALTED, ATTACH_CHANGED. -/
def leaveSwitchComplete (s : State) : State :=
  if s.loop.switching = some .leave then
    raise .attachChanged
      { s with
        loop := { s.loop with switching := none, attach := .bypass, receiver := .outside }
        mode := if s.mode = .halted then .halted else .standby }
  else s

/-- LEAVE_SWITCH_COMPLETE (R13). -/
def execLeaveSwitchComplete (s : State) : Host.Outcome State Fault Refusal :=
  whenPowered s leaveSwitchComplete

end Sys2Proof.Machine
end

