-- ==== Sys2Proof/Machine/Power.lean ====
section
/-! DEFINITION. Power and reset (R12, R15, R136, R174). -/

namespace Sys2Proof.Machine

/-- POWER_UP (R15, R174): power-up values on the store as the loss of power left it. A POWER_UP of a controller that has power is a
loss and a return of power (log 7). A message that was being sent to the engine is ended with CUT (R147, R157; log 33). -/
def execPowerUp (s : State) : Host.Outcome State Fault Refusal :=
  .next { resetHead (if s.powered then losePower s else s) with
    loop := LoopPort.initial }

/-- POWER_LOSS (R136). -/
def execPowerLoss (s : State) : Host.Outcome State Fault Refusal :=
  whenPowered s losePower

/-- RESET_PIN (R174). -/
def execResetPin (s : State) : Host.Outcome State Fault Refusal :=
  whenPowered s resetHead

/-- HEAD_RESET (R174): answered with the mode and the attach state before the reset, and then as the reset pin. -/
def execHeadReset (s : State) : Host.Outcome State Fault Refusal :=
  whenPowered s fun s => resetHead (answerOperation .accepted s)

/-- The relay has settled after a reset: the receiver listens (R12, R15). -/
def relaySettled (s : State) : State :=
  if s.loop.switching = some .reset then { s with loop := { s.loop with switching := none } } else s

/-- RESET_RELAY_SETTLED (R15). -/
def execResetRelaySettled (s : State) : Host.Outcome State Fault Refusal :=
  whenPowered s relaySettled

end Sys2Proof.Machine
end

