-- ==== Sys2Proof/Machine/Rating.lean ====
section
/-! DEFINITION. The rating computation (chapter 6), stage by stage, and the commands RATING_START and RATING_RESULT. -/

namespace Sys2Proof.Machine

/-! ## The inputs (R98) -/

/-- The inputs copied at the start of a rating (R98). -/
def ratingInputs (s : State) (r : PieceRecord) : RatingInputs :=
  let job := s.jobParams r.job
  { serviceClass := match r.address with | some a => a.serviceClass | none => job.defaultClass
    level := match r.address with | some a => a.level | none => job.defaultLevel
    hasAddress := r.address.isSome
    destination := match r.address with | some a => a.digits | none => []
    reading := r.measure.map (fun m => { weight := m.weight, quality := m.quality })
    dims :=
      match r.measure with
      | some m => if m.dimsValid then some { length := m.length, height := m.height, thickness := m.thickness } else none
      | none => none
    ceilingWeight := job.ceilingWeight
    jobZone := job.defaultZone
    binding := r.binding
    bank := (s.rates.slot r.binding.slot).bank }

/-! ## Stage 1: the service class (R101, R102) -/

/-- The first test of R101 to fail. -/
def classFault (i : RatingInputs) : Option RatingFault :=
  if i.serviceClass = 0 then some .nullClass
  else if i.bank.header.serviceLimit < i.serviceClass then some .classRange
  else if (i.bank.service i.serviceClass).present = false then some .classAbsent
  else if i.level < (i.bank.service i.serviceClass).minLevel then some .levelIneligible
  else none

/-- The rating's descriptor (R101). -/
def RatingInputs.descriptor (i : RatingInputs) : ServiceEntry :=
  i.bank.service i.serviceClass

/-- The discount level (R102). -/
def RatingInputs.discountLevel (i : RatingInputs) : Nat :=
  min i.level i.descriptor.maxDiscountLevel

/-! ## Stage 2: shape (R103 to R106) -/

/-- L′, the greater plane side (R103). -/
def Dimensions.longer (d : Dimensions) : Nat :=
  max d.length d.height

/-- H′, the lesser plane side (R103). -/
def Dimensions.shorter (d : Dimensions) : Nat :=
  min d.length d.height

/-- Whether the sides and the thickness are within maxima (R104). -/
def Dimensions.within (d : Dimensions) (m : SizeLimit) : Bool :=
  decide (d.longer ≤ m.length ∧ d.shorter ≤ m.height ∧ d.thickness ≤ m.thickness)

/-- The shape (R103, R104). -/
def shapeOf (h : BankHeader) : Option Dimensions → Shape
  | none => .parcel
  | some d =>
    if d.longer < h.minLength ∨ d.shorter < h.minHeight then .undersize
    else if d.within h.letterMax then .letter
    else if d.within h.largeLetterMax then .largeLetter
    else .parcel

/-- Whether a descriptor accepts a shape (R105). -/
def acceptsShape (e : ServiceEntry) : Shape → Bool
  | .undersize => false
  | .letter => e.acceptsLetter
  | .largeLetter => e.acceptsLargeLetter
  | .parcel => e.acceptsParcel

/-- Whether a letter is machinable (R106). -/
def machinable (h : BankHeader) (d : Dimensions) : Bool :=
  decide (h.aspectLow ≤ h.aspectHigh ∧ h.aspectLow * d.shorter ≤ 10 * d.longer ∧ 10 * d.longer ≤ h.aspectHigh * d.shorter)

/-! ## Stages 3 and 4: weight (R107 to R109) -/

/-- The effective weight (R107). -/
def effectiveWeight (i : RatingInputs) : Nat :=
  match i.reading with
  | none => i.ceilingWeight
  | some w =>
    match w.quality with
    | .settled => w.weight
    | .unsettled => saturate 65535 (w.weight + i.bank.header.settleMargin)
    | .failed => i.ceilingWeight

/-- Division rounding up. -/
def ceilDiv (n d : Nat) : Nat :=
  (n + d - 1) / d

/-- The dimensional weight (R108). -/
def dimensionalWeight (divisor : Nat) (d : Dimensions) : Nat :=
  saturate 65535 (ceilDiv (d.longer * d.shorter * d.thickness) divisor)

/-- The chargeable weight (R109). -/
def chargeableWeight (i : RatingInputs) (shape : Shape) : Nat :=
  match shape, i.dims with
  | .parcel, some d => max (effectiveWeight i) (dimensionalWeight i.bank.header.divisor d)
  | .parcel, none => max (effectiveWeight i) i.ceilingWeight
  | .undersize, _ | .letter, _ | .largeLetter, _ => effectiveWeight i

/-! ## Stage 5: the weight step (R110) -/

/-- The first entry of the run whose expanded limit is at least the chargeable weight (R110). -/
def stepFor (i : RatingInputs) (weight : Nat) : Option (Nat × StepEntry) :=
  (i.bank.run i.descriptor).find? (fun x => decide (weight ≤ expandedLimit x.2))

/-! ## Stage 6: zone (R111, R112) -/

/-- Whether a zone-map entry matches a destination (R112). -/
def zoneMatches (destination : List Nat) (e : ZoneEntry) : Bool :=
  decide (e.count ≤ destination.length) && e.digits.take e.count == destination.take e.count

/-- The longest matching entry, the earlier of two equally long (at most one of each length matches, R112). -/
def longestMatch (destination : List Nat) : List ZoneEntry → Option ZoneEntry
  | [] => none
  | e :: rest =>
    match longestMatch destination rest with
    | none => if zoneMatches destination e then some e else none
    | some best => if zoneMatches destination e ∧ best.count ≤ e.count then some e else some best

/-- The zone (R111, R112). -/
def zoneOf (i : RatingInputs) : Nat :=
  if i.descriptor.zoned = false then 0
  else if i.destination = [] then i.jobZone
  else
    match longestMatch i.destination (i.bank.zonesInUse.map Prod.snd) with
    | some e => e.zone
    | none => i.bank.header.defaultZone

/-! ## Stage 7: charges (R113 to R115) -/

/-- The base (R113). -/
def baseCharge (e : StepEntry) (zone : Nat) : Nat :=
  e.basePrice + e.zoneAdd * zone

/-- The surcharges (R114). -/
def surchargesOf (i : RatingInputs) (shape : Shape) : Nat :=
  match i.dims with
  | none => 0
  | some d =>
    (if shape = .letter ∧ machinable i.bank.header d = false then i.descriptor.nonMachinable else 0) +
      (if 0 < i.descriptor.thicknessThreshold ∧ i.descriptor.thicknessThreshold < d.thickness then
        i.descriptor.thicknessSurcharge else 0)

/-- The per-mille value of a level (R82). -/
def perMilleAt (e : ServiceEntry) : Nat → Nat
  | 0 => e.perMille0
  | 1 => e.perMille1
  | 2 => e.perMille2
  | _ => e.perMille3

/-- The discount (R115). -/
def discountOf (i : RatingInputs) (base : Nat) : Nat :=
  base * perMilleAt i.descriptor i.discountLevel / 1000

/-! ## Stage 8: value (R116 to R118) -/

/-- The rounded charge (R116). -/
def roundUp (resolution raw : Nat) : Nat :=
  ceilDiv raw resolution * resolution

/-- The postage (R117). -/
def postageOf (resolution minCharge raw : Nat) : Nat :=
  max (max (roundUp resolution raw) minCharge) resolution

/-- The flags of a result (R118). -/
def resultFlags (i : RatingInputs) : ConditionFlags :=
  { ConditionFlags.none with
    weightMargin := match i.reading with | some w => w.quality == .unsettled | none => false
    weightDefaulted := match i.reading with | some w => w.quality == .failed | none => true
    dimsDefaulted := i.dims.isNone
    addressDefaulted := !i.hasAddress }

/-- A result of the engine (R100). -/
inductive RatingOutcome where
  | postage (r : RatingResult) (flags : ConditionFlags)
  | fault (f : RatingFault)
  deriving DecidableEq, Repr

/-- Stages 7 and 8 for a shape and a step (R113 to R118). -/
def charge (resolution : Nat) (i : RatingInputs) (shape : Shape) (step : Nat × StepEntry) : RatingOutcome :=
  let zone := zoneOf i
  let base := baseCharge step.2 zone
  let surcharges := surchargesOf i shape
  let discount := discountOf i base
  let postage := postageOf resolution i.descriptor.minCharge (base + surcharges - discount)
  if i.bank.header.valueCeiling < postage then .fault .valueOver
  else .postage { postage := postage, shape := shape, zone := zone, stepIndex := step.1, base := base,
                  surcharges := surcharges, discount := discount } (resultFlags i)

/-- The rating (R97, R100): the stages in order, ended by the first fault. -/
def rate (resolution : Nat) (i : RatingInputs) : RatingOutcome :=
  match classFault i with
  | some f => .fault f
  | none =>
    let shape := shapeOf i.bank.header i.dims
    if acceptsShape i.descriptor shape = false then .fault .shapeRefused
    else
      match stepFor i (chargeableWeight i shape) with
      | none => .fault .overweight
      | some step => charge resolution i shape step

/-! ## The start and the result -/

/-- The engine is idle and the queue is not empty: the first queued record in table order is started (R63, R64). -/
def startRating (s : State) : State :=
  match s.engine with
  | some _ => s
  | none =>
    match s.ratingQueue with
    | [] => s
    | r :: _ =>
      changeRecord r.tag (fun x => { x with state := .rating })
        { s with engine := some { tag := r.tag, inputs := ratingInputs s r } }

/-- A rating fault is applied (R67, R68): last-fault record, RATE_FAULT, a release, retirement. -/
def applyFault (r : PieceRecord) (fault : RatingFault) (serviceClass : Nat) (s : State) : State :=
  retire r .pieceNotice (releaseBody r.piece r.job s.conf.station r.measure r.address)
    (raise .rateFault
      { s with tracker := { s.tracker with
          lastFault := some { piece := r.piece, fault := fault, serviceClass := serviceClass } } })

/-- The funds check passes (R66, R123): the pledged total rises, the record is RATED, the thresholds are judged. -/
def pledge (r : PieceRecord) (result : RatingResult) (flags : ConditionFlags) (s : State) : State :=
  judgeFunds
    (changeRecord r.tag (fun x => { x with rating := some result, flags := x.flags.union flags, state := .rated })
      { s with funds := { s.funds with pledged := s.funds.pledged + result.postage } })

/-- A result is applied to the record it was computed for (R65 to R67). -/
def applyResult (r : PieceRecord) (i : RatingInputs) (s : State) : State :=
  match rate s.conf.resolution i with
  | .fault f => applyFault r f i.serviceClass s
  | .postage result flags =>
    if s.fundsBelow result.postage then applyFault r .fundsShort i.serviceClass s else pledge r result flags s

/-- The engine delivers a result (R65): applied to its record if that is in the table in RATING, otherwise discarded. -/
def deliverResult (s : State) : State :=
  match s.engine with
  | none => s
  | some flight =>
    let t := { s with engine := none }
    match s.tagged? flight.tag with
    | none => t
    | some r => if r.state = .rating then applyResult r flight.inputs t else t

/-- RATING_START (R63). -/
def execRatingStart (s : State) : Host.Outcome State Fault Refusal :=
  whenPowered s startRating

/-- RATING_RESULT (R65). -/
def execRatingResult (s : State) : Host.Outcome State Fault Refusal :=
  whenPowered s deliverResult

end Sys2Proof.Machine
end

