-- ==== Sys2Proof/Machine/Reads.lean ====
section
/-! DEFINITION. The read commands of the service port (R4, R68, R78, R96, R165, R171, R173). -/

namespace Sys2Proof.Machine

/-! ## The funds snapshot (R171) -/

/-- The nine figures, in the order of R171. -/
def snapshot (s : State) : List Nat :=
  [s.store.dr, s.store.ar, s.store.ct, s.store.pc, s.funds.pledged, s.store.credits, s.store.spoils.length,
    s.store.overflowCount, s.store.overflowValue]

/-- The octets of the nine figures (R171). -/
def figureOctets : List Nat :=
  [4, 6, 6, 4, 4, 2, 1, 4, 6]

/-- READ_FUNDS by the start-up state (R168, R171). -/
def readFunds (s : State) : State :=
  match s.funds.startup with
  | .reading => answerRead (.refused .starting) .nothing s
  | .unread => answerRead (.refused .storeUnread) .nothing s
  | .converting | .inUse =>
    answerRead .accepted .nothing { s with port := { s.port with latch := some { figures := snapshot s, index := 0 } } }

/-- READ_FUNDS (R171). -/
def execReadFunds (s : State) : Host.Outcome State Fault Refusal :=
  whenPowered s readFunds

/-- READ_FUNDS_NEXT by the latch (R171). -/
def readFundsNext (s : State) : State :=
  match s.port.latch with
  | none => answerRead (.refused .noSnapshot) .nothing s
  | some l =>
    if l.index < 9 then
      answerRead .accepted (.figure (l.figures.getD l.index 0) (figureOctets.getD l.index 0))
        { s with port := { s.port with latch := some { l with index := l.index + 1 } } }
    else answerRead (.refused .noSnapshot) .nothing s

/-- READ_FUNDS_NEXT (R171). -/
def execReadFundsNext (s : State) : Host.Outcome State Fault Refusal :=
  whenPowered s readFundsNext

/-! ## READ_PIECE (R78) -/

/-- What READ_PIECE answers for an index. -/
def pieceAnswer (s : State) (index : Nat) : AnswerData :=
  .piece ((s.tracker.pieces[index]?).map (fun r => (r, s.checkpoints r))) s.tracker.position s.tracker.pieces.length
    (s.tracker.pieces.any (fun r => r.flags.defaulted))

/-- READ_PIECE by its test (R78). -/
def readPiece (index : Nat) (s : State) : State :=
  if 7 < index then answerRead (.refused .badArgument) .nothing s else answerRead .accepted (pieceAnswer s index) s

/-- READ_PIECE (R78). -/
def execReadPiece (index : Nat) (s : State) : Host.Outcome State Fault Refusal :=
  whenPowered s (readPiece index)

/-! ## READ_BANK_STATE (R96) -/

/-- What READ_BANK_STATE answers. -/
def bankAnswer (s : State) : AnswerData :=
  .banks s.rates.slot0.view s.rates.slot1.view s.rates.active s.rates.switchPoint s.rates.notReady

/-- READ_BANK_STATE (R96). -/
def execReadBankState (s : State) : Host.Outcome State Fault Refusal :=
  whenPowered s fun s => answerRead .accepted (bankAnswer s) s

/-! ## Events (R173) -/

/-- READ_EVENTS: the pending set is returned and becomes the last-reported set. -/
def readEvents (s : State) : State :=
  answerRead .accepted (.events s.port.events (highestCause s.port.events))
    { s with port := { s.port with lastReported := s.port.events } }

/-- READ_EVENTS (R173). -/
def execReadEvents (s : State) : Host.Outcome State Fault Refusal :=
  whenPowered s readEvents

/-- The pending set less the last-reported set (R173). -/
def State.remaining (s : State) : List Event :=
  dropEvents s.port.lastReported s.port.events

/-- CLEAR_EVENTS: the last-reported events go, and the last-reported set is emptied. -/
def clearEvents (s : State) : State :=
  answerRead .accepted (.remaining s.remaining)
    { s with port := { s.port with events := s.remaining, lastReported := [] } }

/-- CLEAR_EVENTS (R173). -/
def execClearEvents (s : State) : Host.Outcome State Fault Refusal :=
  whenPowered s clearEvents

/-! ## READ_SPOIL_OLDEST (R165) -/

/-- The DRAIN writes in a queue: the records they claim stand at the front of the list (R133). -/
def claimsIn (writes : List StoreWrite) : Nat :=
  writes.countP (fun w => match w with | .drain _ => true | _ => false)

/-- The oldest record not claimed by a DRAIN write (R133, R165). -/
def State.oldestUnclaimed (s : State) : Option SpoilRecord :=
  s.store.spoils[claimsIn s.funds.writes]?

/-- What READ_SPOIL_OLDEST answers. -/
def spoilAnswer (s : State) : AnswerData :=
  .spoil s.oldestUnclaimed s.store.spoils.length (claimsIn s.funds.writes) s.store.sequence

/-- READ_SPOIL_OLDEST by the start-up state (R165). -/
def readSpoilOldest (s : State) : State :=
  match s.funds.startup with
  | .reading => answerRead (.refused .starting) .nothing s
  | .unread => answerRead (.refused .storeUnread) .nothing s
  | .converting | .inUse => answerRead .accepted (spoilAnswer s) s

/-- READ_SPOIL_OLDEST (R165). -/
def execReadSpoilOldest (s : State) : Host.Outcome State Fault Refusal :=
  whenPowered s readSpoilOldest

/-! ## Counts and the last fault (R4, R33, R68) -/

/-- READ_LINE_COUNTS: both counts are returned and set to 0 in one step. -/
def readLineCounts (s : State) : State :=
  answerRead .accepted (.lineCounts s.loop.badFrames s.intake.duplicates)
    { s with loop := { s.loop with badFrames := 0 }, intake := { s.intake with duplicates := 0 } }

/-- READ_LINE_COUNTS (R4, R33). -/
def execReadLineCounts (s : State) : Host.Outcome State Fault Refusal :=
  whenPowered s readLineCounts

/-- What READ_LAST_FAULT answers: the record, its fault as the code of R100 (R68). -/
def faultAnswer (s : State) : AnswerData :=
  .lastFault (s.tracker.lastFault.map LastFault.view)

/-- READ_LAST_FAULT (R68). -/
def execReadLastFault (s : State) : Host.Outcome State Fault Refusal :=
  whenPowered s fun s => answerRead .accepted (faultAnswer s) s

end Sys2Proof.Machine
end

