-- ==== Sys2Proof/Machine/Service.lean ====
section
/-! DEFINITION. The setup and operation commands of the service port, UNKNOWN_COMMAND and SHORT_TRANSFER (chapter 10). -/

namespace Sys2Proof.Machine

/-! ## CONFIGURE (R170) -/

/-- The first field out of range, by its order in the table of R170. -/
def firstBadField (c : Configuration) : Option Nat :=
  if ¬(1 ≤ c.station ∧ c.station ≤ 30) then some 1
  else if ¬(1 ≤ c.distance ∧ c.distance ≤ 4194304) then some 2
  else if ¬(2 ≤ c.cutoffLead ∧ c.cutoffLead ≤ c.distance) then some 3
  else if ¬(1 ≤ c.commitLead ∧ c.commitLead < c.cutoffLead) then some 4
  else if ¬(c.resultWindow + c.distance ≤ 4194304) then some 5
  else if ¬(1 ≤ c.takeLimit ∧ c.takeLimit ≤ 8) then some 6
  else if ¬(1 ≤ c.holdLevel ∧ c.holdLevel ≤ c.takeLimit) then some 7
  else if ¬(c.resumeLevel < c.holdLevel) then some 8
  else if ¬(c.resolution = 1 ∨ c.resolution = 5 ∨ c.resolution = 10 ∨ c.resolution = 50) then some 9
  else if ¬(c.seed ≤ 65535) then some 10
  else if ¬(c.takeFloor ≤ 2000000000) then some 11
  else if ¬(c.takeFloor ≤ c.warnLevel ∧ c.warnLevel ≤ 2000000000) then some 12
  else none

/-- An accepted configuration record: stored whole, STANDBY, the funds levels judged (R170). -/
def acceptConfiguration (c : Configuration) (s : State) : State :=
  judgeFunds { s with mode := .standby, port := { s.port with config := some c } }

/-- CONFIGURE by its tests: the mode, the start-up state, the fields (R168, R170). -/
def configure (c : Configuration) (s : State) : State :=
  if s.mode ≠ .setup then answerSetup (.refused .wrongMode) none s
  else
    match s.funds.startup with
    | .reading | .converting => answerSetup (.refused .starting) none s
    | .unread => answerSetup (.refused .wrongMode) none s
    | .inUse =>
      match firstBadField c with
      | some n => answerSetup (.refused .badField) (some n) s
      | none => answerSetup .accepted none (acceptConfiguration c s)

/-- CONFIGURE (R170). -/
def execConfigure (record : Configuration) (s : State) : Host.Outcome State Fault Refusal :=
  whenPowered s (configure record)

/-! ## LOAD_BANK_BLOCK and COMMIT_BANK (R85 to R88) -/

/-- LOAD_BANK_BLOCK for a slot and a part that pass R86 (R85). -/
def loadInto (n : SlotNo) (index : Nat) (part : BankPart) (s : State) : State :=
  match (s.rates.slot n).state with
  | .empty | .loading | .ready =>
    answerSetup .accepted none { s with rates := s.rates.setSlot n ((s.rates.slot n).load index part) }
  | .active | .retiring => answerSetup (.refused .slotBusy) none s

/-- LOAD_BANK_BLOCK by its tests (R85, R86). -/
def loadBank (slot index : Nat) (part : BankPart) (s : State) : State :=
  match slotOf slot with
  | none => answerSetup (.refused .badArgument) none s
  | some n => if partGood index part then loadInto n index part s else answerSetup (.refused .badArgument) none s

/-- LOAD_BANK_BLOCK (R85). -/
def execLoadBankBlock (slot index : Nat) (part : BankPart) (s : State) : Host.Outcome State Fault Refusal :=
  whenPowered s (loadBank slot index part)

/-- COMMIT_BANK by its tests (R87, R88). -/
def commitBank (slot : Nat) (s : State) : State :=
  match s.port.config with
  | none => answerSetup (.refused .wrongMode) none s
  | some c =>
    match slotOf slot with
    | none => answerSetup (.refused .badArgument) none s
    | some n =>
      match commitChecks c.resolution (s.rates.slot n) with
      | some (code, index) => answerSetup (.refused code) index s
      | none => answerSetup .accepted none (acceptCommit n s)

/-- COMMIT_BANK (R87). -/
def execCommitBank (slot : Nat) (s : State) : Host.Outcome State Fault Refusal :=
  whenPowered s (commitBank slot)

/-! ## JOIN and LEAVE (R11, R13) -/

/-- JOIN by its test (R11). -/
def joinRing (s : State) : State :=
  if s.mode = .standby ∧ s.loop.attach = .bypass then
    answerOperation .accepted { s with loop := { s.loop with attach := .joining } }
  else answerOperation (.refused .wrongMode) s

/-- JOIN (R11). -/
def execJoin (s : State) : Host.Outcome State Fault Refusal :=
  whenPowered s joinRing

/-- LEAVE by its test (R13). -/
def leaveRing (s : State) : State :=
  if s.mode = .quiet ∧ s.loop.attach = .attached then
    answerOperation .accepted { s with loop := { s.loop with attach := .leaving } }
  else answerOperation (.refused .wrongMode) s

/-- LEAVE (R13). -/
def execLeave (s : State) : Host.Outcome State Fault Refusal :=
  whenPowered s leaveRing

/-! ## QUIESCE and RESUME (R46, R50) -/

/-- A quiesce condition is held, replacing any other (R46). -/
def holdCondition (q : QuiesceCondition) (s : State) : State :=
  { s with intake := { s.intake with quiesce := q } }

/-- Whether a job is in the table as CLOSED (R46). -/
def State.jobIsClosed (s : State) (n : Nat) : Bool :=
  match s.job? n with
  | some j => !j.isOpen
  | none => false

/-- Whether the free funds are below the configured warn level (R46). -/
def State.fundsAreLow (s : State) : Bool :=
  s.fundsBelow s.conf.warnLevel

/-- QUIESCE in RUNNING (R46). -/
def quiesceRunning (q : QuiesceArg) (s : State) : State :=
  match q with
  | .now => answerOperation .accepted (enterQuiescing s)
  | .atJobClose n =>
    if n = 0 ∨ 255 < n then answerOperation (.refused .badArgument) s
    else if s.jobIsClosed n then answerOperation .accepted (enterQuiescing s)
    else answerOperation .accepted (holdCondition (.atJobClose n) s)
  | .atFundsLow =>
    if s.fundsAreLow then answerOperation .accepted (enterQuiescing s)
    else answerOperation .accepted (holdCondition .atFundsLow s)
  | .other _ => answerOperation (.refused .badArgument) s

/-- QUIESCE by its mode test (R46). -/
def quiesceHead (q : QuiesceArg) (s : State) : State :=
  if s.mode = .running then quiesceRunning q s else answerOperation (.refused .wrongMode) s

/-- QUIESCE (R46). -/
def execQuiesce (condition : QuiesceArg) (s : State) : Host.Outcome State Fault Refusal :=
  whenPowered s (quiesceHead condition)

/-- RESUME by its test (R50; log 15 for LEAVING). -/
def resumeHead (s : State) : State :=
  if (s.mode = .running ∨ s.mode = .quiescing ∨ s.mode = .quiet) ∧ s.loop.attach ≠ .leaving then
    answerOperation .accepted { s with mode := .running, intake := { s.intake with quiesce := .none } }
  else answerOperation (.refused .wrongMode) s

/-- RESUME (R50). -/
def execResume (s : State) : Host.Outcome State Fault Refusal :=
  whenPowered s resumeHead

/-! ## Transfers that are no command (R167) -/

/-- UNKNOWN_COMMAND (R167; log 21): refused, nothing else changes. -/
def execUnknownCommand (_code : Nat) (s : State) : Host.Outcome State Fault Refusal :=
  whenPowered s (answer (.refused .unknownCommand) .untyped .nothing)

/-- The answer to a transfer that ends too early, by the type of the command (R167; log 21). -/
def shortTransfer (type : CommandType) (s : State) : State :=
  match type with
  | .setup => answerSetup (.refused .badArgument) none s
  | .operation => answerOperation (.refused .badArgument) s
  | .read => answerRead (.refused .badArgument) .nothing s
  | .store => answerStore (.refused .badArgument) s

/-- SHORT_TRANSFER (R167). -/
def execShortTransfer (type : CommandType) (s : State) : Host.Outcome State Fault Refusal :=
  whenPowered s (shortTransfer type)

end Sys2Proof.Machine
end

