-- ==== Sys2Proof/Machine/StoreCommands.lean ====
section
/-! DEFINITION. The store commands of the service port (R131, R133). -/

namespace Sys2Proof.Machine

/-- The amounts of the CREDIT writes in a queue (R131). -/
def creditsIn (writes : List StoreWrite) : Nat :=
  (writes.map (fun w => match w with | .credit amount => amount | _ => 0)).sum

/-- The first test of R131 to fail. -/
def creditRefusal (amount : Nat) (s : State) : Option RefusalCode :=
  if s.mode ≠ .standby then some .wrongMode
  else if amount = 0 then some .badAmount
  else if 2000000000 < s.store.dr + creditsIn s.funds.writes + amount then some .overCeiling
  else if 281474976710655 < s.store.ct + creditsIn s.funds.writes + amount then some .totalFull
  else if 6 ≤ s.funds.writes.length then some .queueFull
  else none

/-- CREDIT by its tests (R131). -/
def creditHead (amount : Nat) (s : State) : State :=
  match creditRefusal amount s with
  | some code => answerStore (.refused code) s
  | none => answerStore .accepted (enqueueWrite (.credit amount) s)

/-- CREDIT (R131). -/
def execCredit (amount : Word32) (s : State) : Host.Outcome State Fault Refusal :=
  whenPowered s (creditHead amount.toNat)

/-- The first test of R133 to fail. -/
def drainRefusal (sequence : Nat) (s : State) : Option RefusalCode :=
  if ¬(s.mode = .standby ∨ s.mode = .quiet) then some .wrongMode
  else
    match s.oldestUnclaimed with
    | none => some .spoilEmpty
    | some x =>
      if x.sequence ≠ sequence then some .sequenceMismatch
      else if 6 ≤ s.funds.writes.length then some .queueFull
      else none

/-- DRAIN_SPOIL by its tests (R133). -/
def drainHead (sequence : Nat) (s : State) : State :=
  match drainRefusal sequence s with
  | some code => answerStore (.refused code) s
  | none => answerStore .accepted (enqueueWrite (.drain sequence) s)

/-- DRAIN_SPOIL (R133). -/
def execDrainSpoil (sequence : Nat) (s : State) : Host.Outcome State Fault Refusal :=
  whenPowered s (drainHead sequence)

end Sys2Proof.Machine
end

