-- ==== Sys2Proof/Machine/Writes.lean ====
section
/-! DEFINITION. The completions of store writes, failures, and the start-up read (R124 to R138, R143, R158, R163). -/

namespace Sys2Proof.Machine

/-! ## COMMIT (R72, R127, R143) -/

/-- The service class a record was rated with (R68, R144). -/
def ratedClass (s : State) (r : PieceRecord) : Nat :=
  match r.address with
  | some a => a.serviceClass
  | none => (s.jobParams r.job).defaultClass

/-- The indicium of a piece, from the slot just filled, AR just raised, the rating result and the bank binding (R143, R144). -/
def indicium (s : State) (r : PieceRecord) (o : OpenImprint) : List Byte :=
  withCheckCode s.conf.seed
    (indiciumHead o.value o.dateCode s.conf.station o.serial s.store.ar r.binding.generation
      (match r.rating with | some x => x.shape | none => .undersize) (ratedClass s r) r.piece)

/-- The imprint request at the completion of a commit (R143). -/
def requestImprint (r : PieceRecord) (o : OpenImprint) (s : State) : State :=
  sendEngine (.imprintRequest o.serial (indicium s r o))
    { s with imprint := { s.imprint with
        path := s.imprint.path ++ [{ serial := o.serial, tag := r.tag, phase := .requested }] } }

/-- The record of a piece in COMMITTING. -/
def State.committing? (s : State) (p : PieceNo) : Option PieceRecord :=
  s.tracker.pieces.find? (fun r => r.piece == p && r.state == .committing)

/-- The record is COMMITTED and its imprint requested (first case of R72). -/
def commitOnTime (r : PieceRecord) (o : OpenImprint) (s : State) : State :=
  placeNotice (requestImprint r o
    (changeRecord r.tag (fun x => { x with serial := some o.serial, state := .committed }) s))

/-- The print checkpoint is reached: a SPOIL LATE_COMMIT is asked for (second case of R72). The notice of an open place comes before
or after it (R126; log 10). -/
def commitLate (r : PieceRecord) (o : OpenImprint) (s : State) : State :=
  let t := changeRecord r.tag (fun x => { x with serial := some o.serial }) { s with freeCount := s.freeCount + 1 }
  let request := requestSlotWrite { r with serial := some o.serial } (.spoilSlot o.serial .lateCommit)
  if Config.placeNoticeFirst s.freeCount then request (placeNotice t) else placeNotice (request t)

/-- A COMMIT completes and is applied (R72, R127). -/
def commitComplete (postage : Nat) (piece : PieceNo) (job dateCode : Nat) (rest : List StoreWrite) (s : State) : State :=
  let o : OpenImprint :=
    { serial := nextCount s.freeCount s.store.pc, piece := piece, value := postage, job := job, dateCode := dateCode }
  let t := lowerPledge postage (completeWrite (.commit postage piece job dateCode) rest s)
  match t.committing? piece with
  | none => placeNotice t
  | some r => if reached t.tracker.position (t.checkpoints r).print then commitLate r o t else commitOnTime r o t

/-- COMMIT_WRITE_COMPLETE (R127). -/
def execCommitWriteComplete (s : State) : Host.Outcome State Fault Refusal :=
  whenPowered s fun s =>
    match s.funds.writes with
    | .commit postage piece job dateCode :: rest => commitComplete postage piece job dateCode rest s
    | _ => s

/-! ## CLOSE (R75, R128, R158) -/

/-- Whether an entry may be removed to make room (R158). -/
def FrankedEntry.removable (e : FrankedEntry) : Bool :=
  match e.state with
  | .pending | .good | .spoiled => true
  | .spoilPending | .spoiling => false

/-- A franked piece joins the recent franked list (R158). -/
def joinFranked (e : FrankedEntry) (recent : List FrankedEntry) : List FrankedEntry :=
  if recent.length < 32 then recent ++ [e]
  else if recent.any FrankedEntry.removable then recent.eraseP FrankedEntry.removable ++ [e]
  else recent

/-- The entry of a record the Verify Unit is given (R75). -/
def frankedEntry (r : PieceRecord) (serial : Nat) : FrankedEntry :=
  { piece := r.piece, serial := serial, value := r.postage, job := r.job, state := .pending, reason := none }

/-- The piece is reported FRANKED, retired and entered in the recent franked list (R75, R128). -/
def finishFranked (r : PieceRecord) (serial : Nat) (s : State) : State :=
  retireReported r .franked r.postage serial
    { s with verify := { s.verify with recent := joinFranked (frankedEntry r serial) s.verify.recent } }

/-- A CLOSE completes and is applied (R128). -/
def closeComplete (serial : Nat) (rest : List StoreWrite) (s : State) : State :=
  let t := completeWrite (.close serial) rest s
  match t.serial? serial .finishing with
  | none => placeNotice t
  | some r => placeNotice (finishFranked r serial t)

/-- CLOSE_WRITE_COMPLETE (R128). -/
def execCloseWriteComplete (s : State) : Host.Outcome State Fault Refusal :=
  whenPowered s fun s =>
    match s.funds.writes with
    | .close serial :: rest => closeComplete serial rest s
    | _ => s

/-! ## SPOIL from a slot (R75, R129, R138) -/

/-- The cause of the SPOILED report of a spoil reason (R28). -/
def spoilCause : SpoilReason → FrankCause
  | .printFailed => .printFailed
  | .noResult => .noResult
  | .lateCommit => .lateCommit
  | .unconfirmed | .unreadable | .valueMismatch | .notSeen | .verifyUnmatched => .noResult

/-- Whether a write is one of the start-up conversion (R138): it alone carries UNCONFIRMED. -/
def isConversion : StoreWrite → Bool
  | .spoilSlot _ reason => reason == .unconfirmed
  | .commit .. | .close _ | .spoilVerdict .. | .spoilUnmatched _ | .credit _ | .drain _ => false

/-- The conversion ends when none of its writes is left in the queue (R138; log 31). -/
def continueConversion (s : State) : State :=
  if s.funds.startup = .converting ∧ s.funds.writes.any isConversion = false then
    { s with funds := { s.funds with startup := .inUse } }
  else s

/-- The piece is reported SPOILED and retired (R75). -/
def finishSpoiled (serial : Nat) (reason : SpoilReason) (s : State) : State :=
  match s.serial? serial .finishing with
  | none => s
  | some r => retireReported r (spoilCause reason) 0 serial s

/-- A SPOIL from a slot completes and is applied (R129). -/
def spoilSlotComplete (serial : Nat) (reason : SpoilReason) (rest : List StoreWrite) (s : State) : State :=
  let t := judgeSpoils s.store.spoils.length (completeWrite (.spoilSlot serial reason) rest s)
  placeNotice (if reason = .unconfirmed then continueConversion t else finishSpoiled serial reason t)

/-- SPOIL_SLOT_WRITE_COMPLETE (R129). -/
def execSpoilSlotWriteComplete (s : State) : Host.Outcome State Fault Refusal :=
  whenPowered s fun s =>
    match s.funds.writes with
    | .spoilSlot serial reason :: rest => spoilSlotComplete serial reason rest s
    | _ => s

/-! ## Verdict and unmatched spoils (R130, R163) -/

/-- A SPOIL from a verdict completes and is applied (R130, R163): the entry of its serial is SPOILED. -/
def spoilVerdictComplete (piece : PieceNo) (serial value job : Nat) (reason : SpoilReason) (rest : List StoreWrite) (s : State) :
    State :=
  let t := judgeSpoils s.store.spoils.length (completeWrite (.spoilVerdict piece serial value job reason) rest s)
  placeNotice (setFranked serial .spoiled none t)

/-- SPOIL_VERDICT_WRITE_COMPLETE (R130). -/
def execSpoilVerdictWriteComplete (s : State) : Host.Outcome State Fault Refusal :=
  whenPowered s fun s =>
    match s.funds.writes with
    | .spoilVerdict piece serial value job reason :: rest => spoilVerdictComplete piece serial value job reason rest s
    | _ => s

/-- A SPOIL unmatched completes and is applied (R130, R163). -/
def spoilUnmatchedComplete (piece : PieceNo) (rest : List StoreWrite) (s : State) : State :=
  placeNotice (judgeSpoils s.store.spoils.length (completeWrite (.spoilUnmatched piece) rest s))

/-- SPOIL_UNMATCHED_WRITE_COMPLETE (R130). -/
def execSpoilUnmatchedWriteComplete (s : State) : Host.Outcome State Fault Refusal :=
  whenPowered s fun s =>
    match s.funds.writes with
    | .spoilUnmatched piece :: rest => spoilUnmatchedComplete piece rest s
    | _ => s

/-! ## CREDIT and DRAIN (R132, R133) -/

/-- A CREDIT completes and is applied (R132). -/
def creditComplete (amount : Nat) (rest : List StoreWrite) (s : State) : State :=
  placeNotice (judgeFunds (completeWrite (.credit amount) rest s))

/-- CREDIT_WRITE_COMPLETE (R132). -/
def execCreditWriteComplete (s : State) : Host.Outcome State Fault Refusal :=
  whenPowered s fun s =>
    match s.funds.writes with
    | .credit amount :: rest => creditComplete amount rest s
    | _ => s

/-- A DRAIN completes and is applied (R133). -/
def drainComplete (sequence : Nat) (rest : List StoreWrite) (s : State) : State :=
  placeNotice (judgeSpoils s.store.spoils.length (completeWrite (.drain sequence) rest s))

/-- DRAIN_WRITE_COMPLETE (R133). -/
def execDrainWriteComplete (s : State) : Host.Outcome State Fault Refusal :=
  whenPowered s fun s =>
    match s.funds.writes with
    | .drain sequence :: rest => drainComplete sequence rest s
    | _ => s

/-! ## Failure (R73, R76, R134, R163) -/

/-- The record of a failed slot write is given up (R76). -/
def failSlotWrite (serial : Nat) (s : State) : State :=
  match s.serial? serial .finishing with
  | none => s
  | some r => missPiece r .storeFault serial s

/-- A failed COMMIT (R73, R134): the pledge is released, the levels are judged, the piece is given up. -/
def failCommit (postage : Nat) (piece : PieceNo) (s : State) : State :=
  let t := judgeFunds (lowerPledge postage s)
  match t.committing? piece with
  | none => t
  | some r => missPiece r .storeFault 0 t

/-- What the block that asked for a write does when it fails (table of R134). -/
def failWrite (s : State) (w : StoreWrite) : State :=
  match w with
  | .commit postage piece _ _ => failCommit postage piece s
  | .close serial => failSlotWrite serial s
  | .spoilSlot serial reason => if reason = .unconfirmed then s else failSlotWrite serial s
  | .spoilVerdict _ serial _ _ reason => setFranked serial .spoilPending (some reason) s
  | .spoilUnmatched piece => holdUnmatched piece s
  | .credit _ => s
  | .drain _ => s

/-- The front write fails: HALTED, STORE_FAULT, and every write of the queue failed in queue order (R134). -/
def failStore (s : State) : State :=
  match s.funds.writes with
  | [] => s
  | w :: rest => (w :: rest).foldl failWrite (raise .storeFault (halt { s with funds := { s.funds with writes := [] } }))

/-- STORE_WRITE_FAILED (R134). -/
def execStoreWriteFailed (s : State) : Host.Outcome State Fault Refusal :=
  whenPowered s failStore

/-! ## The start-up read (R137, R138) -/

/-- The conversion writes of the occupied slots, in increasing order of serials (R138). -/
def conversionWrites (st : Store) : List StoreWrite :=
  match st.open0, st.open1 with
  | none, none => []
  | some a, none => [.spoilSlot a.serial .unconfirmed]
  | none, some b => [.spoilSlot b.serial .unconfirmed]
  | some a, some b =>
    if a.serial ≤ b.serial then [.spoilSlot a.serial .unconfirmed, .spoilSlot b.serial .unconfirmed]
    else [.spoilSlot b.serial .unconfirmed, .spoilSlot a.serial .unconfirmed]

/-- A good start-up read: the marks are set and the conversion begins, or has nothing to do (R137, R138). -/
def readGood (s : State) : State :=
  { s with funds := { s.funds with
      writes := s.funds.writes ++ conversionWrites s.store
      startup := if conversionWrites s.store = [] then .inUse else .converting
      lowMark := false
      outMark := false
      warnMark := decide (40 ≤ s.store.spoils.length)
      fullMark := decide (48 ≤ s.store.spoils.length) } }

/-- A failed start-up read (R137). -/
def readFailed (s : State) : State :=
  raise .storeFault (halt { s with funds := { s.funds with startup := .unread } })

/-- STARTUP_READ_COMPLETE (R137). -/
def execStartupReadComplete (good : Bool) (s : State) : Host.Outcome State Fault Refusal :=
  whenPowered s fun s =>
    if s.funds.startup = .reading then (if good then readGood s else readFailed s) else s

end Sys2Proof.Machine
end

