-- ==== Sys2Proof/Machine/Dispatch.lean ====
section
/-! DEFINITION. The dispatch: one arm for each command of the table. -/

namespace Sys2Proof.Machine

def exec (i : Instr) (s : State) : Host.Outcome State Fault Refusal :=
  match i with
  | .powerUp => Sys2Proof.Machine.execPowerUp s
  | .resetPin => Sys2Proof.Machine.execResetPin s
  | .resetRelaySettled => Sys2Proof.Machine.execResetRelaySettled s
  | .frameAbandoned why => Sys2Proof.Machine.execFrameAbandoned why s
  | .badFrame octets => Sys2Proof.Machine.execBadFrame octets s
  | .unknownKindFrame kind f => Sys2Proof.Machine.execUnknownKindFrame kind f s
  | .pieceNotice f => Sys2Proof.Machine.execPieceNotice f s
  | .releasedNotice f => Sys2Proof.Machine.execReleasedNotice f s
  | .measureReport f => Sys2Proof.Machine.execMeasureReport f s
  | .addressReport f => Sys2Proof.Machine.execAddressReport f s
  | .jobOpen f => Sys2Proof.Machine.execJobOpen f s
  | .jobClose f => Sys2Proof.Machine.execJobClose f s
  | .rateSwitch f => Sys2Proof.Machine.execRateSwitch f s
  | .feedHold f => Sys2Proof.Machine.execFeedHold f s
  | .feedResume f => Sys2Proof.Machine.execFeedResume f s
  | .frankReport f => Sys2Proof.Machine.execFrankReport f s
  | .verifyReport f => Sys2Proof.Machine.execVerifyReport f s
  | .forwardFrameSent => Sys2Proof.Machine.execForwardFrameSent s
  | .ownFrameSent => Sys2Proof.Machine.execOwnFrameSent s
  | .joinSwitchStart => Sys2Proof.Machine.execJoinSwitchStart s
  | .joinSwitchComplete => Sys2Proof.Machine.execJoinSwitchComplete s
  | .leaveSwitchStart => Sys2Proof.Machine.execLeaveSwitchStart s
  | .leaveSwitchComplete => Sys2Proof.Machine.execLeaveSwitchComplete s
  | .loopLost => Sys2Proof.Machine.execLoopLost s
  | .loopReturn sym => Sys2Proof.Machine.execLoopReturn sym s
  | .encoderPulseForward => Sys2Proof.Machine.execEncoderPulseForward s
  | .encoderPulseReverse => Sys2Proof.Machine.execEncoderPulseReverse s
  | .cutoff piece => Sys2Proof.Machine.execCutoff piece s
  | .commitCheckpoint piece => Sys2Proof.Machine.execCommitCheckpoint piece s
  | .printCheckpoint piece => Sys2Proof.Machine.execPrintCheckpoint piece s
  | .resultDeadline piece => Sys2Proof.Machine.execResultDeadline piece s
  | .ratingStart => Sys2Proof.Machine.execRatingStart s
  | .ratingResult => Sys2Proof.Machine.execRatingResult s
  | .commitWriteComplete => Sys2Proof.Machine.execCommitWriteComplete s
  | .closeWriteComplete => Sys2Proof.Machine.execCloseWriteComplete s
  | .spoilSlotWriteComplete => Sys2Proof.Machine.execSpoilSlotWriteComplete s
  | .spoilVerdictWriteComplete => Sys2Proof.Machine.execSpoilVerdictWriteComplete s
  | .spoilUnmatchedWriteComplete => Sys2Proof.Machine.execSpoilUnmatchedWriteComplete s
  | .creditWriteComplete => Sys2Proof.Machine.execCreditWriteComplete s
  | .drainWriteComplete => Sys2Proof.Machine.execDrainWriteComplete s
  | .storeWriteFailed => Sys2Proof.Machine.execStoreWriteFailed s
  | .startupReadComplete good => Sys2Proof.Machine.execStartupReadComplete good s
  | .imprintDone serial => Sys2Proof.Machine.execImprintDone serial s
  | .imprintFailed serial reason => Sys2Proof.Machine.execImprintFailed serial reason s
  | .imprintMessageDiscarded input => Sys2Proof.Machine.execImprintMessageDiscarded input s
  | .imprintMessageSent => Sys2Proof.Machine.execImprintMessageSent s
  | .configure record => Sys2Proof.Machine.execConfigure record s
  | .loadBankBlock slot index part => Sys2Proof.Machine.execLoadBankBlock slot index part s
  | .commitBank slot => Sys2Proof.Machine.execCommitBank slot s
  | .join => Sys2Proof.Machine.execJoin s
  | .leave => Sys2Proof.Machine.execLeave s
  | .quiesce condition => Sys2Proof.Machine.execQuiesce condition s
  | .resume => Sys2Proof.Machine.execResume s
  | .headReset => Sys2Proof.Machine.execHeadReset s
  | .readFunds => Sys2Proof.Machine.execReadFunds s
  | .readFundsNext => Sys2Proof.Machine.execReadFundsNext s
  | .readPiece index => Sys2Proof.Machine.execReadPiece index s
  | .readBankState => Sys2Proof.Machine.execReadBankState s
  | .readEvents => Sys2Proof.Machine.execReadEvents s
  | .clearEvents => Sys2Proof.Machine.execClearEvents s
  | .readSpoilOldest => Sys2Proof.Machine.execReadSpoilOldest s
  | .readLineCounts => Sys2Proof.Machine.execReadLineCounts s
  | .readLastFault => Sys2Proof.Machine.execReadLastFault s
  | .credit amount => Sys2Proof.Machine.execCredit amount s
  | .drainSpoil sequence => Sys2Proof.Machine.execDrainSpoil sequence s
  | .unknownCommand code => Sys2Proof.Machine.execUnknownCommand code s
  | .shortTransfer type => Sys2Proof.Machine.execShortTransfer type s
  | .idleReceived sym => Sys2Proof.Machine.execIdleReceived sym s
  | .powerLoss => Sys2Proof.Machine.execPowerLoss s

end Sys2Proof.Machine
end

