-- ==== Sys2Proof/Safety.lean ====
section
/-! DEFINITION. What a sound state of the controller is: the invariants that the manual states or that its rules keep. -/

namespace Sys2Proof.Machine

/-! ## Bounds -/

/-- The octets a receiver holds. -/
def bufferLength : Receiver → Nat
  | .receiving buffer => buffer.length
  | .outside | .ignoring => 0

/-- The bounds of the Loop Port's lists and counts (R2, R4, R6, R9). -/
def LoopPort.Bounded (l : LoopPort) : Prop :=
  bufferLength l.receiver ≤ 46 ∧ l.idleRun ≤ 255 ∧ l.badFrames ≤ 65535 ∧ l.forward.length ≤ 4 ∧ l.own.length ≤ 8

/-- The bounds of the Intake Unit's lists and counts (R29, R33, R37). -/
def Intake.Bounded (i : Intake) : Prop :=
  i.jobs.length ≤ 4 ∧ i.passing.length ≤ 8 ∧ i.duplicates ≤ 65535

/-- The bounds of the non-volatile content that its writes keep (R119, R121). -/
def Store.Bounded (st : Store) : Prop :=
  st.pc ≤ 4294967295 ∧ st.credits ≤ 65535 ∧ st.spoils.length ≤ 48 ∧ st.sequence ≤ 4294967295 ∧
    st.overflowCount ≤ 4294967295 ∧ st.overflowValue ≤ 281474976710655

/-- The bounds of the Imprint Unit and the Verify Unit (R147, R148, R158, R162). -/
def State.UnitsBounded (s : State) : Prop :=
  s.imprint.sendQueue.length ≤ 8 ∧ bufferLength s.imprint.receiver ≤ 29 ∧ s.verify.recent.length ≤ 32 ∧
    s.verify.unmatched.length ≤ 4

/-- Every list and count within the bound its rule gives. -/
def State.Bounded (s : State) : Prop :=
  s.loop.Bounded ∧ s.intake.Bounded ∧ s.store.Bounded ∧ s.UnitsBounded

/-! ## The Rate Store (R80) -/

/-- What a slot's state says of its content and its bindings (table of R80). -/
def BankSlot.Sound (b : BankSlot) : Prop :=
  (b.state = .empty ↔ b.content = none) ∧ (b.state = .empty ∨ b.state = .loading ∨ b.state = .ready → b.bound = 0) ∧
    (b.state = .retiring → 1 ≤ b.bound)

/-- A READY or a RETIRING slot exists only while the other slot is ACTIVE (R80). -/
def needsActive (a b : BankState) : Prop :=
  a = .ready ∨ a = .retiring → b = .active

/-- The two slots stand together as R80 says: at most one ACTIVE, READY and RETIRING only beside an ACTIVE one. -/
def RateStore.Sound (b : RateStore) : Prop :=
  b.slot0.Sound ∧ b.slot1.Sound ∧ ¬(b.slot0.state = .active ∧ b.slot1.state = .active) ∧
    needsActive b.slot0.state b.slot1.state ∧ needsActive b.slot1.state b.slot0.state

/-! ## The piece table and the passing list (R37, R54, R94, R97) -/

/-- The tags name the records, and no two records have the same piece number (R54). -/
def Tracker.Sound (t : Tracker) : Prop :=
  (t.pieces.map PieceRecord.tag).Nodup ∧ (∀ r ∈ t.pieces, r.tag < t.nextTag) ∧ (t.pieces.map PieceRecord.piece).Nodup

/-- No piece number is at once in the piece table and in the passing list, which holds each at most once (R37). -/
def State.ListsApart (s : State) : Prop :=
  (s.intake.passing.map PassingEntry.piece).Nodup ∧
    ∀ r ∈ s.tracker.pieces, ∀ e ∈ s.intake.passing, r.piece ≠ e.piece

/-- The records bound to a slot. -/
def boundTo (n : SlotNo) (pieces : List PieceRecord) : Nat :=
  pieces.countP (fun r => r.binding.slot == n)

/-- Each slot's binding count is the number of records bound to it (R94), and every record is bound to a slot that is ACTIVE or
RETIRING (R80). -/
def State.BindingsCounted (s : State) : Prop :=
  s.tracker.Sound ∧ s.rates.Sound ∧ (∀ n, (s.rates.slot n).bound = boundTo n s.tracker.pieces) ∧
    ∀ r ∈ s.tracker.pieces, (s.rates.slot r.binding.slot).state = .active ∨ (s.rates.slot r.binding.slot).state = .retiring

/-- A record in RATING is the one the rating in flight was started for (R63, R97). -/
def State.EngineSound (s : State) : Prop :=
  s.tracker.Sound ∧ ∀ r ∈ s.tracker.pieces, r.state = .rating → s.engine.map RatingInFlight.tag = some r.tag

/-! ## Funds (R119, R122) -/

/-- Whether a record's postage is pledged: in RATED and COMMITTING (R57, R122). -/
def PieceRecord.pledges (r : PieceRecord) : Bool :=
  r.state == .rated || r.state == .committing

/-- The sum of the postage of the records in RATED and COMMITTING (R122). -/
def pledgedSum (pieces : List PieceRecord) : Nat :=
  ((pieces.filter PieceRecord.pledges).map PieceRecord.postage).sum

/-- The COMMIT writes of a queue, by piece number and postage. -/
def commitsOf (writes : List StoreWrite) : List (PieceNo × Nat) :=
  writes.filterMap (fun w => match w with | .commit postage piece _ _ => some (piece, postage) | _ => none)

/-- Each COMMIT write in the queue is that of a record in COMMITTING with its postage, and no two are of one piece. -/
def State.CommitsMatched (s : State) : Prop :=
  ((commitsOf s.funds.writes).map Prod.fst).Nodup ∧
    ∀ x ∈ commitsOf s.funds.writes, ∃ r ∈ s.tracker.pieces, r.piece = x.1 ∧ r.state = .committing ∧ r.postage = x.2

/-- The account balances: AR plus DR equals CT (R119), the pledged total is the sum over RATED and COMMITTING and never exceeds DR
(R122). -/
def State.FundsBalanced (s : State) : Prop :=
  s.tracker.Sound ∧ s.CommitsMatched ∧ s.store.ar + s.store.dr = s.store.ct ∧
    s.funds.pledged = pledgedSum s.tracker.pieces ∧ s.funds.pledged ≤ s.store.dr

/-- Whether a write is a slot write (R126). -/
def isSlotWrite : StoreWrite → Bool
  | .close _ | .spoilSlot .. => true
  | .commit .. | .spoilVerdict .. | .spoilUnmatched _ | .credit _ | .drain _ => false

/-- The writes that are not slot writes never number more than 6 (R126). -/
def State.PlacesReserved (s : State) : Prop :=
  (s.funds.writes.filter (fun w => !isSlotWrite w)).length ≤ 6

/-- Every COMMIT in the queue has a free open-imprint slot to fill (R125). -/
def State.SlotsReserved (s : State) : Prop :=
  s.store.occupied.length + commitsIn s.funds.writes ≤ 2

/-- DR and CT keep their ceilings, the credits still in the queue counted (R131). -/
def State.CeilingsHeld (s : State) : Prop :=
  s.store.dr + creditsIn s.funds.writes ≤ 2000000000 ∧ s.store.ct + creditsIn s.funds.writes ≤ 281474976710655

/-- The spoil records stand in increasing sequence order, and none was given a sequence above the counter (R121). -/
def Store.SpoilsOrdered (st : Store) : Prop :=
  (st.spoils.map SpoilRecord.sequence).Pairwise (· < ·) ∧ ∀ x ∈ st.spoils, x.sequence ≤ st.sequence

/-- What the store and its write queue keep: the places of slot writes, the slots of commits, the ceilings, the order of spoils. -/
def State.StoreSound (s : State) : Prop :=
  s.PlacesReserved ∧ s.SlotsReserved ∧ s.CeilingsHeld ∧ s.store.SpoilsOrdered

/-! ## Imprints outstanding and their slots (R120, R126, R138, R142) -/

/-- The serials of the records in a state; none stands for a record without one. -/
def serialsIn (state : PieceState) (pieces : List PieceRecord) : List (Option Nat) :=
  (pieces.filter (fun r => r.state == state)).map PieceRecord.serial

/-- The serials of the slot writes that the Piece Tracker asked for (R126). -/
def closingSerials (writes : List StoreWrite) : List (Option Nat) :=
  writes.filterMap fun w =>
    match w with
    | .close serial => some (some serial)
    | .spoilSlot serial reason => if reason = .unconfirmed then none else some (some serial)
    | .commit .. | .spoilVerdict .. | .spoilUnmatched _ | .credit _ | .drain _ => none

/-- The serials of the slot writes of the start-up conversion (R138). -/
def conversionSerials (writes : List StoreWrite) : List (Option Nat) :=
  writes.filterMap fun w =>
    match w with
    | .spoilSlot serial reason => if reason = .unconfirmed then some (some serial) else none
    | .close _ | .commit .. | .spoilVerdict .. | .spoilUnmatched _ | .credit _ | .drain _ => none

/-- The serials of the occupied slots (R120). -/
def Store.openSerials (st : Store) : List (Option Nat) :=
  st.occupied.map (fun o => some o.serial)

/-- The serials that a record in COMMITTED or FINISHING, or a write of the start-up conversion, answers for. -/
def State.answered (s : State) : List (Option Nat) :=
  serialsIn .committed s.tracker.pieces ++ serialsIn .finishing s.tracker.pieces ++ conversionSerials s.funds.writes

/-- Each print path entry belongs to a record of its own, which is in COMMITTED and has the entry's serial (R142). -/
def State.PathSound (s : State) : Prop :=
  (s.imprint.path.map PathEntry.tag).Nodup ∧
    ∀ e ∈ s.imprint.path, ∃ r ∈ s.tracker.pieces, r.tag = e.tag ∧ r.state = .committed ∧ r.serial = some e.serial

/-- Each record in COMMITTED or FINISHING, and each write of the conversion, has an occupied slot of its own, and but for HALTED
and while the store is being read each occupied slot is one of these (R120, R138). -/
def State.SlotsAnswered (s : State) : Prop :=
  s.answered.Subperm s.store.openSerials ∧
    (s.mode ≠ .halted → s.funds.startup ≠ .reading → s.answered.Perm s.store.openSerials)

/-- The imprints outstanding: the print path, the slots and the slot writes agree with the piece table. Each record in FINISHING has
one slot write in the queue (R74, R126); the queue is empty in HALTED (R134, R135) and while the store is being read, when the head
is in SETUP (R137). -/
def State.Settled (s : State) : Prop :=
  s.PathSound ∧ s.SlotsAnswered ∧ (closingSerials s.funds.writes).Perm (serialsIn .finishing s.tracker.pieces) ∧
    (s.mode = .halted → s.funds.writes = []) ∧ (s.funds.startup = .reading → s.mode = .setup ∧ s.funds.writes = [])

/-- The two slots never hold one serial, and none above the piece count (R120); each record in COMMITTED has a print path entry
(R142). -/
def State.SerialsSound (s : State) : Prop :=
  s.store.openSerials.Nodup ∧ (∀ o ∈ s.store.occupied, o.serial ≤ s.store.pc) ∧
    ∀ r ∈ s.tracker.pieces, r.state = .committed → ∃ e ∈ s.imprint.path, e.tag = r.tag

/-- The front write is no COMMIT, or the piece count has a next value for its serial (R119; log 11). -/
def State.serialAhead (s : State) : Prop :=
  s.store.pc < 4294967295 ∨ ∀ postage piece job dateCode rest, s.funds.writes ≠ .commit postage piece job dateCode :: rest

/-! ## The closing order (R29) -/

/-- No job number stands twice in the job table, and the closing order holds each CLOSED record's number once and no other (R29). -/
def Intake.ClosingSound (i : Intake) : Prop :=
  (i.jobs.map JobRecord.number).Nodup ∧ i.closing.Nodup ∧
    ∀ n, n ∈ i.closing ↔ ∃ j ∈ i.jobs, j.number = n ∧ j.isOpen = false

/-! ## Events (R172, R173) -/

/-- The pending set is in its one form, each event at most once and in priority order, and holds every last-reported event. -/
def Port.Sound (p : Port) : Prop :=
  p.events = allEvents.filter (fun e => p.events.contains e) ∧ ∀ e ∈ p.lastReported, e ∈ p.events

/-! ## Modes (sections 1.9 and 3.7, R45, R49, R169, R170) -/

/-- The relay and the switching period an attach state goes with (section 1.9, R15). -/
def LoopPort.AttachSound (l : LoopPort) : Prop :=
  match l.attach with
  | .bypass => l.relay = .bypass ∧ (l.switching = none ∨ l.switching = some .reset)
  | .joining =>
    (l.relay = .bypass ∧ (l.switching = none ∨ l.switching = some .reset)) ∨ (l.relay = .through ∧ l.switching = some .join)
  | .attached => l.relay = .through ∧ l.switching = none
  | .leaving => (l.relay = .through ∧ l.switching = none) ∨ (l.relay = .bypass ∧ l.switching = some .leave)

/-- The queues of the outgoing link: no notice waits unanswered between commands (R7), nothing waits while the controller does not
stand in the ring (R11, R13), the transmitter sends from a queue that is not empty, and it rests only on empty queues (R10). -/
def LoopPort.QueuesSound (l : LoopPort) : Prop :=
  (∀ e ∈ l.forward, e.held = false) ∧
    (l.attach = .bypass ∨ l.attach = .joining ∨ l.switching = some .leave →
      l.forward = [] ∧ l.own = [] ∧ l.transmitter = .idle) ∧
    (l.transmitter = .sendingForward → l.forward ≠ []) ∧ (l.transmitter = .sendingOwn → l.own ≠ []) ∧
    (l.relay = .through ∧ l.switching = none ∧ l.transmitter = .idle → l.forward = [] ∧ l.own = [])

/-- The head mode an attach state goes with (section 1.9, R169). -/
def State.ModeAttached (s : State) : Prop :=
  match s.loop.attach with
  | .bypass => s.mode = .setup ∨ s.mode = .standby ∨ s.mode = .halted
  | .joining => s.mode = .standby ∨ s.mode = .halted
  | .attached => s.mode = .running ∨ s.mode = .quiescing ∨ s.mode = .quiet ∨ s.mode = .halted
  | .leaving => s.mode = .quiet ∨ s.mode = .halted

/-- What a head mode says of the piece table, the quiesce condition, the configuration record and the start-up state (sections 3.7
and 7.7, R49, R51, R169, R170). -/
def State.ModeHolds (s : State) : Prop :=
  (s.mode = .setup ∨ s.mode = .standby ∨ s.mode = .quiet → s.tracker.pieces = []) ∧
    (s.mode = .quiescing → s.tracker.pieces ≠ []) ∧ (s.intake.quiesce ≠ .none → s.mode = .running) ∧
    (s.port.config = none → s.mode = .setup ∨ s.mode = .halted) ∧ (s.mode = .setup → s.port.config = none) ∧
    (s.funds.startup ≠ .inUse → s.mode = .setup ∨ s.mode = .halted)

/-- The head mode, the attach state, the relay, the queues and the piece table agree. -/
def State.ModesSound (s : State) : Prop :=
  s.loop.AttachSound ∧ s.loop.QueuesSound ∧ s.ModeAttached ∧ s.ModeHolds

/-- The configuration record is in range (R170), and the piece table count does not exceed the take limit (R54). -/
def State.TableBounded (s : State) : Prop :=
  s.ModesSound ∧ (∀ c, s.port.config = some c → firstBadField c = none) ∧ s.tracker.pieces.length ≤ s.conf.takeLimit

/-! ## Words the statements use -/

/-- The frame a frame row carries (R16). -/
def lineFrameOf : Instr → Option Frame
  | .unknownKindFrame kind f => some (lineFrame kind f)
  | .pieceNotice f | .releasedNotice f => some (lineFrame (kindCode .pieceNotice) f)
  | .measureReport f => some (lineFrame (kindCode .measureReport) f)
  | .addressReport f => some (lineFrame (kindCode .addressReport) f)
  | .jobOpen f => some (lineFrame (kindCode .jobOpen) f)
  | .jobClose f => some (lineFrame (kindCode .jobClose) f)
  | .rateSwitch f => some (lineFrame (kindCode .rateSwitch) f)
  | .feedHold f => some (lineFrame (kindCode .feedHold) f)
  | .feedResume f => some (lineFrame (kindCode .feedResume) f)
  | .frankReport f => some (lineFrame (kindCode .frankReport) f)
  | .verifyReport f => some (lineFrame (kindCode .verifyReport) f)
  | _ => none

/-- The first tests of R5 and R8 let a frame through: the controller hears it, it is good, it is not its own, its hop count does not
run out, and in the ring the forward queue has a place for it. -/
def State.Admits (s : State) (f : Frame) : Prop :=
  s.powered = true ∧ s.loop.switching = none ∧ f.bad = false ∧ s.isOwn f.origin.toNat = false ∧ f.hop.toNat ≠ 1 ∧
    (s.inRing = true → s.loop.forward.length < 4)

/-- The forward queue after a frame is admitted: in the ring the frame joins it with its hop count one less, aside nothing does
(R5, R8). -/
def State.forwardWith (s : State) (f : Frame) : List ForwardEntry :=
  if s.inRing then s.loop.forward ++ [{ frame := { f with hop := f.hop - 1 }, held := false }] else s.loop.forward

/-- The choice of the outgoing arbiter (R10). -/
def nextTransmitter (forward : List ForwardEntry) (own : List Frame) : Transmitter :=
  match forward, own with
  | e :: _, _ => if e.held then .idle else .sendingForward
  | [], _ :: _ => .sendingOwn
  | [], [] => .idle

/-- The tests 1 to 6 of R34 in words of the state. -/
def State.TakesOriginal (s : State) (n : Notice) : Prop :=
  s.mode = .running ∧ n.takeStation = 0 ∧ s.jobIsOpen n.job = true ∧ s.tracker.pieces.length < s.conf.takeLimit ∧
    s.store.spoils.length < 40 ∧ s.funds.pledged + s.conf.takeFloor ≤ s.store.dr

/-- The tests 1, 2 and 4 to 9 of R38 against a passing-list entry, in words of the state. -/
def State.TakesRelease (s : State) (n : Notice) (e : PassingEntry) : Prop :=
  s.mode = .running ∧ n.takeStation = 0 ∧ e.job = n.job ∧
    reached s.tracker.position (checkpointsOf s.conf e.reference).cutoff = false ∧ s.jobIsOpen n.job = true ∧
    s.tracker.pieces.length < s.conf.takeLimit ∧ s.store.spoils.length < 40 ∧
    s.funds.pledged + s.conf.takeFloor ≤ s.store.dr

/-- The commands that power the controller up or down, or reset it. -/
def isRestart : Instr → Bool
  | .powerUp | .resetPin | .headReset | .powerLoss => true
  | _ => false

/-- The commands that are the completion of a store write applied (R124). -/
def isWriteComplete : Instr → Bool
  | .commitWriteComplete | .closeWriteComplete | .spoilSlotWriteComplete | .spoilVerdictWriteComplete
  | .spoilUnmatchedWriteComplete | .creditWriteComplete | .drainWriteComplete => true
  | _ => false

end Sys2Proof.Machine
end

