-- ==== Sys2Proof/Certificates/Slice0/Obligations.lean ====
section
/-! DEFINITION. The statements for the provers. -/

open Sys2Proof Sys2Proof.Machine

/-- A step runs the command at the front of the queue. For every command c, every queue rest and every state s, a step of s with c
in front of rest is exec of c on s with rest as its queue. The queue is the model's own (log 1). -/
def Obligations.StepTakesFront : Prop :=
  ∀ (c : Instr) (rest : List Instr) (s : State), step { s with pending := c :: rest } = exec c { s with pending := rest }

/-- A step takes nothing from the queue but its front, and idles when the queue is empty. On an empty queue a step answers the state
unchanged, and no command changes the queue it runs before (model's choice, logs 1 and 30). -/
def Obligations.QueueOnlyTakenFrom : Prop :=
  (∀ s : State, s.pending = [] → step s = .next s) ∧
    ∀ (c : Instr) (s t : State), exec c s = .next t → t.pending = s.pending

/-- The invariants hold right after power-up. The state after the first power-up meets every invariant that the statements below say
each step keeps. The content of a store that has never held funds is partly the model's choice (log 19). -/
def Obligations.InvariantsHoldAtReset : Prop :=
  State.reset.Bounded ∧ (State.reset.tracker.Sound ∧ State.reset.ListsApart ∧ State.reset.EngineSound) ∧
    State.reset.BindingsCounted ∧ State.reset.FundsBalanced ∧ State.reset.StoreSound ∧
    State.reset.port.Sound ∧ State.reset.TableBounded ∧ State.reset.Settled ∧ State.reset.SerialsSound ∧
    State.reset.intake.ClosingSound

/-- The receive buffers, the loop and send queues, the lists and the saturating counts keep their bounds, and the closing order
holds the CLOSED jobs. If the two receive buffers (46 and 29 octets), the IDLE run, the bad-frame and duplicate counts, the
forward and own-frame queues (4 and 8), the job table (4), the passing list (8), the piece and credit counts, the spoil list
(48) with its sequence and overflow totals, the send queue (8), the recent franked list (32) and the unmatched list (4) are
within their bounds, they are after every step. Every step keeps: no job number stands twice in the job table, and the closing
order holds the number of each CLOSED record once and no other; so it is no longer than the job table. (StoreKept bounds the
print path and the store write queue, ModesKept the piece table.) -/
def Obligations.BoundsKept : Prop :=
  (∀ s t : State, s.Bounded → step s = .next t → t.Bounded) ∧
    (∀ s t : State, s.intake.ClosingSound → step s = .next t → t.intake.ClosingSound) ∧
    ∀ i : Intake, i.ClosingSound → i.closing.length ≤ i.jobs.length

/-- No piece number stands twice in the piece table, or in the table and in the passing list, and only the record being rated is in
RATING. Every step keeps: no two records have one piece number or one tag; the passing list holds each piece number at most
once; no piece number is at once in the piece table and in the passing list; a record in RATING is the record of the rating in
flight, so at most one is in RATING. The tags are the model's own (log 25). -/
def Obligations.PiecesKept : Prop :=
  ∀ s t : State, (s.tracker.Sound ∧ s.ListsApart ∧ s.EngineSound) → step s = .next t → (t.tracker.Sound ∧ t.ListsApart ∧ t.EngineSound)

/-- The binding counts count the records, which are bound to ACTIVE or RETIRING slots. Every step keeps, with the invariants of the
table and of the slots: each slot's binding count is the number of piece records bound to it, and every piece record is bound to
a slot that is ACTIVE or RETIRING. -/
def Obligations.BindingsKept : Prop :=
  ∀ s t : State, s.BindingsCounted → step s = .next t → t.BindingsCounted

/-- AR plus DR equals CT, and the pledged total is covered by DR. Every step keeps, with the matching of COMMIT writes to records in
COMMITTING: AR plus DR equals CT; the pledged total is the sum of the postage of the records in RATED and COMMITTING; the
pledged total never exceeds DR. -/
def Obligations.AccountKept : Prop :=
  ∀ s t : State, s.FundsBalanced → step s = .next t → t.FundsBalanced

/-- The store keeps its places, slots, ceilings and spoil order; the print path, the slots and the slot writes go with the records.
Every step keeps: the writes that are not slot writes never number more than 6; every COMMIT in the queue has a free
open-imprint slot; DR and CT, with the credits in the queue, stay within their ceilings; the spoil records stand in increasing
sequence order at or below the counter. From a state whose account, store and modes are sound, every step keeps: each print path
entry has a record of its own in COMMITTED with its serial; each record in COMMITTED or FINISHING and each conversion write has
an occupied slot of its own, and but for HALTED and READING each occupied slot has one of these; the records in FINISHING are
those with a slot write in the queue; the queue is empty in HALTED and in READING. While the piece count has a next value for
the serial of a front COMMIT (log 11) every step also keeps: the two slots never hold one serial, none is above the piece count,
and each COMMITTED record has a print path entry. So the print path holds at most 2 entries, no two with one serial, and the
queue at most 8 writes. -/
def Obligations.StoreKept : Prop :=
  (∀ s t : State, s.StoreSound → step s = .next t → t.StoreSound) ∧
    (∀ s t : State, s.FundsBalanced → s.StoreSound → s.TableBounded → s.Settled → step s = .next t →
      t.Settled ∧ (s.SerialsSound → s.serialAhead → t.SerialsSound)) ∧
    ∀ s : State, s.StoreSound → s.Settled → s.imprint.path.length ≤ 2 ∧ s.funds.writes.length ≤ 8 ∧
      (s.SerialsSound → (s.imprint.path.map PathEntry.serial).Nodup)

/-- The pending event set holds each event at most once and every last-reported event. Every step keeps: the pending set is in its
one form, each event at most once and in priority order, and every event of the last-reported set is pending. -/
def Obligations.EventSetKept : Prop :=
  ∀ s t : State, s.port.Sound → step s = .next t → t.port.Sound

/-- Head mode, attach state, relay, queues, piece table and configuration record agree. Every step keeps: the relay and the
switching period go with the attach state; the head mode goes with the attach state; SETUP, STANDBY and QUIET hold no piece and
QUIESCING holds one; a quiesce condition is held in RUNNING only; the configuration record is absent in SETUP, and but for SETUP
and HALTED present; the outgoing queues are empty outside the ring, and the transmitter rests only on empty queues; a present
configuration record passes the twelve field tests, and the piece table count is at most the configured take limit. -/
def Obligations.ModesKept : Prop :=
  ∀ s t : State, s.TableBounded → step s = .next t → t.TableBounded

/-- The configuration record stands and HALTED lasts until the next power-up or reset. From a state whose modes agree, no command
but POWER_UP, POWER_LOSS, RESET_PIN and HEAD_RESET changes a present configuration record or leads out of HALTED. -/
def Obligations.ConfigurationAndHaltedLast : Prop :=
  ∀ (c : Instr) (s t : State), isRestart c = false → s.TableBounded → exec c s = .next t →
    (∀ x, s.port.config = some x → t.port.config = some x) ∧ (s.mode = .halted → t.mode = .halted)

/-- The non-volatile content changes only at completions, the position only at forward pulses, and pending events go only by
CLEAR_EVENTS. But for power-up, loss of power and resets: a command that is no applied completion leaves the non-volatile
content; a command other than a forward pulse leaves the transport position; a command other than CLEAR_EVENTS leaves every
pending event pending. -/
def Obligations.StoreChangesOnlyAtCompletions : Prop :=
  ∀ (c : Instr) (s t : State), isRestart c = false → exec c s = .next t →
    (isWriteComplete c = false → t.store = s.store) ∧
      (c ≠ .encoderPulseForward → t.tracker.position = s.tracker.position) ∧
      (c ≠ .clearEvents → ∀ e ∈ s.port.events, e ∈ t.port.events)

/-- A raise adds its event to the pending set and takes it from the last-reported set; the lines and the highest cause follow. The
17 events stand in the order of the table of R172, and the urgent ones are STORE_FAULT, FUNDS_OUT, SPOIL_FULL, LOOP_LOST and
BANK_NOT_READY. After a raise an event is pending if it was or is the one raised, and last-reported if it was and is not the one
raised; nothing else changes. URGENT and ROUTINE stand when an event of their class is pending, and the highest cause of a set
is a pending event before which no other in the table's order is pending. -/
def Obligations.RaiseAddsOneEvent : Prop :=
  (allEvents = [.storeFault, .fundsOut, .spoilFull, .loopLost, .bankNotReady, .fundsLow, .spoilWarn, .rateFault,
        .pieceMissed, .lateResult, .verifyUnmatched, .bankSwitched, .jobConflict, .frameDrop, .beltReverse, .attachChanged,
        .quietReached] ∧
      (∀ e : Event, e ∈ allEvents) ∧
      ∀ e : Event, e.urgent = true ↔
        e ∈ ([.storeFault, .fundsOut, .spoilFull, .loopLost, .bankNotReady] : List Event)) ∧
    (∀ (e x : Event) (s : State), (x ∈ (raise e s).port.events ↔ x = e ∨ x ∈ s.port.events) ∧
      (x ∈ (raise e s).port.lastReported ↔ x ≠ e ∧ x ∈ s.port.lastReported) ∧
      (raise e s).port.config = s.port.config ∧ (raise e s).port.latch = s.port.latch ∧
      { raise e s with port := s.port } = s) ∧
    (∀ set : List Event, (urgentLine set = true ↔ ∃ e ∈ set, e.urgent = true) ∧
      (routineLine set = true ↔ ∃ e ∈ set, e.urgent = false)) ∧
    ∀ (set : List Event) (e : Event), highestCause set = some e ↔
      e ∈ set ∧ ∀ x ∈ set, allEvents.idxOf e ≤ allEvents.idxOf x

/-- A frame a block originates is completed and queued, dropped with FRAME_DROP, or discarded. Attached with fewer than 8 own
frames, the frame joins the end of the own-frame queue with the configured station as origin and hop count 32, and a resting
transmitter chooses by the arbiter's rule; attached with 8, FRAME_DROP is raised; not attached, nothing happens. -/
def Obligations.FrameGiven : Prop :=
  ∀ (kind : FrameKind) (body : List Byte) (s : State),
    (s.loop.attach ≠ .attached → giveFrame kind body s = s) ∧
    (s.loop.attach = .attached → 8 ≤ s.loop.own.length → giveFrame kind body s = raise .frameDrop s) ∧
    (s.loop.attach = .attached → s.loop.own.length < 8 →
      let own := s.loop.own ++
        [{ kind := kindCode kind, origin := BitVec.ofNat 8 s.conf.station, hop := 32, body := body }]
      giveFrame kind body s = { s with loop := { s.loop with
        own := own
        transmitter :=
          if s.loop.relay = .through ∧ s.loop.switching = none ∧ s.loop.transmitter = .idle then
            nextTransmitter s.loop.forward own
          else s.loop.transmitter } })

/-- What a retirement does. At the retirement of a record of a table whose tags name the records: the record leaves the table, its
slot's binding count falls by one and a RETIRING slot without bindings becomes EMPTY; the feed-hold flag is cleared exactly when
the count falls to the resume level with the flag set; in QUIESCING an empty table makes the head QUIET with QUIET_REACHED. When
the head is not ATTACHED no frame is queued; when it is and the queue has room, the retirement's frame and the FEED RESUME, if
one is composed, are appended in either order (log 9). The store, the funds, the passing list, the print path and the verify
lists are not touched. -/
def Obligations.RetirementEffects : Prop :=
  ∀ (r : PieceRecord) (kind : FrameKind) (body : List Byte) (s : State), s.tracker.Sound → r ∈ s.tracker.pieces →
    let t := retire r kind body s
    t.tracker = { s.tracker with pieces := s.tracker.pieces.filter (fun x => x.piece != r.piece) } ∧
      t.tracker.pieces.length + 1 = s.tracker.pieces.length ∧
      t.rates = s.rates.setSlot r.binding.slot (s.rates.slot r.binding.slot).released ∧
      (let resumes := s.port.config.isSome = true ∧ t.tracker.pieces.length = s.conf.resumeLevel ∧ s.intake.feedHold = true
       t.intake = { s.intake with feedHold := if resumes then false else s.intake.feedHold } ∧
       (s.loop.attach ≠ .attached → t.loop = s.loop) ∧
       (s.loop.attach = .attached → ¬resumes → s.loop.own.length < 8 → t.loop.own = s.loop.own ++ [ownFrame s kind body]) ∧
       (s.loop.attach = .attached → resumes → s.loop.own.length < 7 →
         t.loop.own = s.loop.own ++ [ownFrame s kind body, ownFrame s .feedResume (toOctets 1 s.conf.resumeLevel)] ∨
         t.loop.own = s.loop.own ++ [ownFrame s .feedResume (toOctets 1 s.conf.resumeLevel), ownFrame s kind body])) ∧
      t.mode = (if s.mode = .quiescing ∧ s.tracker.pieces.length = 1 then .quiet else s.mode) ∧
      (s.mode = .quiescing → s.tracker.pieces.length = 1 → .quietReached ∈ t.port.events) ∧
      t.store = s.store ∧ t.funds = s.funds ∧ t.imprint = s.imprint ∧ t.verify = s.verify ∧ t.engine = s.engine ∧
      t.port.config = s.port.config ∧
      ∀ b : BankSlot,
        (b.state ≠ .retiring ∨ 2 ≤ b.bound → b.released = { b with bound := b.bound - 1 }) ∧
        (b.state = .retiring → b.bound = 1 → b.released = { state := .empty, content := none, generation := 0, bound := 0 })

/-- A frame laid out on the link passes the tests of R3 and is read back. For every frame with a hop count of 1 to 32 and a body of
at most 40 octets, the octets it is sent as are not a bad frame, they spell the same frame, and they number the body octets plus
6. -/
def Obligations.FrameOctetsAreGood : Prop :=
  ∀ f : Frame, f.bad = false →
    badOctets f.octets = false ∧ frameOf f.octets = f ∧ f.octets.length = f.body.length + 6

/-- A release and a FRANK REPORT the controller composes pass the tests of their kinds. A release composed under a configured
station 1 to 30 for a job 1 to 255, with blocks whose fields are in the ranges of R18, is read back as the released notice it
was composed from, open and with the same blocks. The body of a FRANK REPORT is the piece number, the outcome and the reason the
table of R28 gives for the cause, the value and the serial, most significant octet first. Composed by that table it is well
formed: FRANKED with a value and a serial above 0; SPOILED with a serial above 0; UNFRANKED with serial 0 for PATH_BUSY and
RATING_LATE. -/
def Obligations.ComposedFramesAreGood : Prop :=
  (∀ (station job : Nat) (hop : Byte) (p : PieceNo) (m : Option MeasurePart) (a : Option AddressPart),
      1 ≤ station → station ≤ 30 → 1 ≤ job → job ≤ 255 →
      (∀ x, m = some x → x.weight ≤ 65535 ∧ x.length ≤ 1023 ∧ x.height ≤ 1023 ∧ x.thickness ≤ 255) →
      (∀ x, a = some x → x.serviceClass ≤ 31 ∧ x.level ≤ 3 ∧ x.digits.length ≤ 8 ∧ ∀ d ∈ x.digits, d ≤ 9) →
      ({ kind := kindCode .pieceNotice, origin := BitVec.ofNat 8 station, hop := hop,
         body := releaseBody p job station m a } : Frame).reading =
        .good (.notice { piece := p, job := job, takeStation := 0, releasedBy := station, measure := m, address := a })) ∧
    (∀ (p : PieceNo) (value serial : Nat),
      let four : Nat → List Byte := fun n =>
        [BitVec.ofNat 8 (n / 16777216), BitVec.ofNat 8 (n / 65536), BitVec.ofNat 8 (n / 256), BitVec.ofNat 8 n]
      let spelled := fun (cause : FrankCause) (outcome reason : Byte) => frankBody p cause value serial =
        [BitVec.ofNat 8 (p.toNat / 256), BitVec.ofNat 8 p.toNat, outcome, reason] ++ four value ++ four serial
      spelled .franked 1 0 ∧ spelled .printFailed 2 1 ∧ spelled .noResult 2 2 ∧ spelled .lateCommit 2 3 ∧
        spelled .pathBusy 3 4 ∧ spelled .ratingLate 3 5 ∧ spelled .storeFault 3 6) ∧
    ∀ (station : Nat) (hop : Byte) (p : PieceNo) (cause : FrankCause) (value serial : Nat),
      1 ≤ station → station ≤ 30 → serial ≤ 4294967295 → value ≤ 4294967295 →
      (cause = .franked → 1 ≤ value) → (cause ≠ .franked → value = 0) →
      (cause = .franked ∨ outcomeCode cause = 2 → 1 ≤ serial) → (cause = .pathBusy ∨ cause = .ratingLate → serial = 0) →
      ({ kind := kindCode .frankReport, origin := BitVec.ofNat 8 station, hop := hop,
         body := frankBody p cause value serial } : Frame).reading = .good .forwardedOnly

/-- The 22 octets of the indicium. With the value, date code, station, serial, generation and class in their ranges, the indicium is
22 octets whose fields, most significant octet first, are the value, date code, station, serial, AR modulo 4 294 967 296,
generation, shape and class, and piece number, and whose last two octets are the check code of the first 20 from the seed. The
shape code is 1 for LETTER, 2 for LARGE_LETTER and 3 for PARCEL. The check code starts from the seed and takes the bits of each
octet from the most significant first, with the generator 0x1021. -/
def Obligations.IndiciumLayout : Prop :=
  (shapeCode .letter = 1 ∧ shapeCode .largeLetter = 2 ∧ shapeCode .parcel = 3) ∧
    (∀ seed : Nat, checkCode seed [] = BitVec.ofNat 16 seed ∧
      ∀ (octets : List Byte) (b : Byte), checkCode seed (octets ++ [b]) =
        [7, 6, 5, 4, 3, 2, 1, 0].foldl (fun (r : Word16) i =>
          if b.getLsbD i = r.getLsbD 15 then r <<< 1 else (r <<< 1) ^^^ 0x1021#16) (checkCode seed octets)) ∧
    ∀ (seed value dateCode station serial ar generation serviceClass : Nat) (shape : Shape) (p : PieceNo),
    value < 4294967296 → dateCode < 65536 → station < 256 → serial < 4294967296 → generation < 65536 → serviceClass < 32 →
    let octets := withCheckCode seed (indiciumHead value dateCode station serial ar generation shape serviceClass p)
    octets.length = 22 ∧ ofOctets (octets.take 4) = value ∧ ofOctets ((octets.drop 4).take 2) = dateCode ∧
      ofOctets ((octets.drop 6).take 1) = station ∧ ofOctets ((octets.drop 7).take 4) = serial ∧
      ofOctets ((octets.drop 11).take 4) = ar % 4294967296 ∧ ofOctets ((octets.drop 15).take 2) = generation ∧
      ofOctets ((octets.drop 17).take 1) = shapeCode shape * 32 + serviceClass ∧
      ofOctets ((octets.drop 18).take 2) = p.toNat ∧
      ofOctets (octets.drop 20) = (checkCode seed (octets.take 20)).toNat

/-- The messages to the engine have the octets of R146, good results are read back, and other messages are discarded. IMPRINT
REQUEST is 0x51, the serial and the indicium record, PRINT 0x52 and CANCEL 0x53 with the serial, CLEAR 0x54 alone, each ended
with the line-frame check of the octets before it; with a 22-octet indicium they have 29, 7, 7 and 3 octets. The octets of an
IMPRINT DONE or an IMPRINT FAILED with any serial and any engine reason, ended with their check, are read as that result. A
completed message of another type, of another length than its type's, or whose check does not match is discarded. -/
def Obligations.EngineMessagesAreRead : Prop :=
  (∀ (serial : Nat) (record : List Byte),
      let four : List Byte := [BitVec.ofNat 8 (serial / 16777216), BitVec.ofNat 8 (serial / 65536),
        BitVec.ofNat 8 (serial / 256), BitVec.ofNat 8 serial]
      let ended := fun (fields : List Byte) =>
        fields ++ [BitVec.ofNat 8 ((lineCheck fields).toNat / 256), BitVec.ofNat 8 (lineCheck fields).toNat]
      (EngineMessage.imprintRequest serial record).octets = ended ([0x51] ++ four ++ record) ∧
        (EngineMessage.print serial).octets = ended ([0x52] ++ four) ∧
        (EngineMessage.cancel serial).octets = ended ([0x53] ++ four) ∧ EngineMessage.clear.octets = ended [0x54]) ∧
    (∀ (serial : Nat) (indicium : List Byte), indicium.length = 22 →
      (EngineMessage.imprintRequest serial indicium).octets.length = 29 ∧ (EngineMessage.print serial).octets.length = 7 ∧
      (EngineMessage.cancel serial).octets.length = 7 ∧ EngineMessage.clear.octets.length = 3) ∧
    (∀ (serial : Word32) (reason : Byte),
      let done : List Byte := 0x61 :: toOctets 4 serial.toNat
      let failed : List Byte := 0x62 :: (toOctets 4 serial.toNat ++ [reason])
      readEngine (done ++ registerOctets (lineCheck done)) = some (.done serial.toNat) ∧
      readEngine (failed ++ registerOctets (lineCheck failed)) = some (.failed serial.toNat)) ∧
    ∀ octets : List Byte, (octetAt octets 0 ≠ 0x61 → octetAt octets 0 ≠ 0x62 → readEngine octets = none) ∧
      (octetAt octets 0 = 0x61 → octets.length ≠ 7 → readEngine octets = none) ∧
      (octetAt octets 0 = 0x62 → octets.length ≠ 8 → readEngine octets = none) ∧
      (octets.drop (octets.length - 2) ≠ registerOctets (lineCheck (octets.take (octets.length - 2))) →
        readEngine octets = none)

/-- The bank a piece is bound to. Before the switch point or with none held, the piece is bound to the ACTIVE slot, and with no slot
ACTIVE there is no bank. At or after it: a READY slot of the generation named becomes ACTIVE with the piece bound to it, the old
slot RETIRING or, without bindings, EMPTY, the point removed, the mark cleared, BANK_SWITCHED raised; otherwise an ACTIVE slot
of that generation gets the piece and the point is removed; otherwise there is no bank. No bank raises BANK_NOT_READY once, by
the mark, and changes no slot and no point. A binding names the slot and its generation and raises its count by one. -/
def Obligations.BankForAPiece : Prop :=
  ∀ (p : PieceNo) (s : State), s.rates.Sound →
    let bound := fun (b : RateStore) (n : SlotNo) =>
      b.setSlot n { b.slot n with bound := (b.slot n).bound + 1 }
    let refused : State × Option Binding :=
      if s.rates.notReady then (s, none) else (raise .bankNotReady { s with rates := { s.rates with notReady := true } }, none)
    let before : Prop := ∀ point, s.rates.switchPoint = some point → 32768 ≤ (p - point.first).toNat
    (∀ n, before → (s.rates.slot n).state = .active →
      askBank p s = ({ s with rates := bound s.rates n }, some { slot := n, generation := (s.rates.slot n).generation })) ∧
    (before → (∀ n, (s.rates.slot n).state ≠ .active) → askBank p s = refused) ∧
    ∀ point, s.rates.switchPoint = some point → (p - point.first).toNat < 32768 →
      (∀ n, (s.rates.slot n).state = .ready → (s.rates.slot n).generation = point.generation →
        ∃ u, askBank p s = (u, some { slot := n, generation := point.generation }) ∧ .bankSwitched ∈ u.port.events ∧
          (u.rates.slot n).state = .active ∧ (u.rates.slot n).bound = 1 ∧
          (u.rates.slot n).content = (s.rates.slot n).content ∧
          u.rates.slot n.other = (if (s.rates.slot n.other).bound = 0 then BankSlot.blank
            else { s.rates.slot n.other with state := .retiring }) ∧
          u.rates.switchPoint = none ∧ u.rates.notReady = false ∧ { u with rates := s.rates, port := s.port } = s) ∧
      ((∀ n, (s.rates.slot n).state = .ready → (s.rates.slot n).generation ≠ point.generation) →
        (∀ n, (s.rates.slot n).state = .active → (s.rates.slot n).generation = point.generation →
          askBank p s = ({ s with rates := { bound s.rates n with switchPoint := none } },
            some { slot := n, generation := point.generation })) ∧
        ((∀ n, (s.rates.slot n).state = .active → (s.rates.slot n).generation ≠ point.generation) →
          askBank p s = refused))

/-- Stage 1 tests the service class in order, and the first test to fail ends the rating. The class 0 gives NULL_CLASS; otherwise a
class above the service limit CLASS_RANGE; otherwise an absent descriptor CLASS_ABSENT; otherwise a level below the minimum
level LEVEL_INELIGIBLE; when all four pass, the rating gives none of these four faults and goes on with the descriptor at the
class's index. -/
def Obligations.ServiceClassTests : Prop :=
  ∀ (resolution : Nat) (i : RatingInputs),
    (i.serviceClass = 0 → rate resolution i = .fault .nullClass) ∧
    (i.serviceClass ≠ 0 → i.bank.header.serviceLimit < i.serviceClass → rate resolution i = .fault .classRange) ∧
    (i.serviceClass ≠ 0 → i.serviceClass ≤ i.bank.header.serviceLimit → (i.bank.service i.serviceClass).present = false →
      rate resolution i = .fault .classAbsent) ∧
    (i.serviceClass ≠ 0 → i.serviceClass ≤ i.bank.header.serviceLimit → (i.bank.service i.serviceClass).present = true →
      i.level < (i.bank.service i.serviceClass).minLevel → rate resolution i = .fault .levelIneligible) ∧
    (i.serviceClass ≠ 0 → i.serviceClass ≤ i.bank.header.serviceLimit → (i.bank.service i.serviceClass).present = true →
      (i.bank.service i.serviceClass).minLevel ≤ i.level →
      i.descriptor = i.bank.service i.serviceClass ∧
        ∀ f, rate resolution i = .fault f → f = .shapeRefused ∨ f = .overweight ∨ f = .valueOver)

/-- The shape of a piece, its acceptance, and its effective, dimensional and chargeable weights. The shape is the first of
UNDERSIZE, LETTER, LARGE_LETTER, PARCEL whose condition holds, PARCEL without dimensions, and is the same whichever side the
dimensioner reported as the length, as is the whole rating. The effective weight is the measured one, with the margin and
clamped at 65 535 when UNSETTLED, the ceiling weight when FAILED or absent. The dimensional weight is the least number of
decigrams that covers the volume, clamped at 65 535. The chargeable weight is the greater of the effective and the dimensional
weight for a PARCEL with dimensions, of the effective and the ceiling weight for one without, and the effective weight for
LETTER and LARGE_LETTER. Past stage 1 the rating ends with SHAPE_REFUSED exactly when the shape is UNDERSIZE or is not in the
descriptor's accepted set. -/
def Obligations.ShapeAndWeight : Prop :=
  (∀ (h : BankHeader) (d : Dimensions),
      let inside := fun (m : SizeLimit) =>
        max d.length d.height ≤ m.length ∧ min d.length d.height ≤ m.height ∧ d.thickness ≤ m.thickness
      let under := max d.length d.height < h.minLength ∨ min d.length d.height < h.minHeight
      (shapeOf h (some d) = .undersize ↔ under) ∧ (shapeOf h (some d) = .letter ↔ ¬under ∧ inside h.letterMax) ∧
        (shapeOf h (some d) = .largeLetter ↔ ¬under ∧ ¬inside h.letterMax ∧ inside h.largeLetterMax) ∧
        shapeOf h none = .parcel) ∧
    (∀ (resolution : Nat) (i : RatingInputs) (d : Dimensions), i.dims = some d →
      rate resolution { i with dims := some { length := d.height, height := d.length, thickness := d.thickness } } =
        rate resolution i) ∧
    (∀ (i : RatingInputs) (w : Nat),
      (i.reading = some { weight := w, quality := .settled } → effectiveWeight i = w) ∧
      (i.reading = some { weight := w, quality := .unsettled } →
        effectiveWeight i = min 65535 (w + i.bank.header.settleMargin)) ∧
      (i.reading = some { weight := w, quality := .failed } ∨ i.reading = none → effectiveWeight i = i.ceilingWeight)) ∧
    (∀ (divisor n : Nat) (d : Dimensions), 1 ≤ divisor → n ≤ 65535 →
      (dimensionalWeight divisor d ≤ n ↔ n = 65535 ∨ d.length * d.height * d.thickness ≤ n * divisor)) ∧
    ∀ i : RatingInputs,
      (∀ d, i.dims = some d →
        chargeableWeight i .parcel = max (effectiveWeight i) (dimensionalWeight i.bank.header.divisor d)) ∧
      (i.dims = none → chargeableWeight i .parcel = max (effectiveWeight i) i.ceilingWeight) ∧
      chargeableWeight i .letter = effectiveWeight i ∧ chargeableWeight i .largeLetter = effectiveWeight i ∧
      (let shape := shapeOf i.bank.header i.dims
       let accepted := shape = .letter ∧ i.descriptor.acceptsLetter = true ∨
         shape = .largeLetter ∧ i.descriptor.acceptsLargeLetter = true ∨
         shape = .parcel ∧ i.descriptor.acceptsParcel = true
       (acceptsShape i.descriptor shape = true ↔ accepted) ∧
         (classFault i = none → ∀ resolution, rate resolution i = .fault .shapeRefused ↔ ¬accepted))

/-- Stage 5 takes the first step whose expanded limit holds the chargeable weight. The step found is an entry of the descriptor's
run, with its index in the step table; its expanded limit is at least the weight and that of every entry of the run before it is
below; there is none exactly when the limit of every entry of the run is below the weight, and then the rating ends with
OVERWEIGHT once its class and shape have passed; the expanded limit is the value for FINE and the value times 10 plus 9 for
COARSE. -/
def Obligations.WeightStep : Prop :=
  ∀ (i : RatingInputs) (weight : Nat),
    (∀ (k : Nat) (e : StepEntry), stepFor i weight = some (k, e) →
      e = i.bank.step k ∧ i.descriptor.firstStep ≤ k ∧ k < i.descriptor.firstStep + i.descriptor.stepCount ∧
        weight ≤ expandedLimit e ∧
        ∀ j, i.descriptor.firstStep ≤ j → j < k → expandedLimit (i.bank.step j) < weight) ∧
    (stepFor i weight = none ↔ ∀ j, i.descriptor.firstStep ≤ j → j < i.descriptor.firstStep + i.descriptor.stepCount →
      expandedLimit (i.bank.step j) < weight) ∧
    (∀ e : StepEntry, (e.grain = .fine → expandedLimit e = e.limit) ∧ (e.grain = .coarse → expandedLimit e = e.limit * 10 + 9)) ∧
    ∀ resolution : Nat, classFault i = none → acceptsShape i.descriptor (shapeOf i.bank.header i.dims) = true →
      (stepFor i (chargeableWeight i (shapeOf i.bank.header i.dims)) = none → rate resolution i = .fault .overweight) ∧
      ∀ k e r flags, stepFor i (chargeableWeight i (shapeOf i.bank.header i.dims)) = some (k, e) →
        rate resolution i = .postage r flags → r.stepIndex = k

/-- Stage 6 finds the zone: 0, the job's default, the longest match, or the bank's default. A service that is not zoned gives zone
0; a zoned one without a destination the job's default zone; with a destination, the zone of the matching entry in use with the
greatest digit count, given that no two entries in use are alike, and the bank's default zone when no entry matches. An entry
matches when its digits number at most the destination's and equal its first digits. -/
def Obligations.ZoneOfAPiece : Prop :=
  ∀ i : RatingInputs,
    (i.descriptor.zoned = false → zoneOf i = 0) ∧
    (i.descriptor.zoned = true → i.destination = [] → zoneOf i = i.jobZone) ∧
    (i.descriptor.zoned = true → i.destination ≠ [] →
      let used := fun (k : Nat) => k < i.bank.header.zoneCount ∧ 1 ≤ (i.bank.zone k).count ∧ (i.bank.zone k).count ≤ 8
      let hits := fun (k : Nat) => (i.bank.zone k).count ≤ i.destination.length ∧
        (i.bank.zone k).digits.take (i.bank.zone k).count = i.destination.take (i.bank.zone k).count
      (∀ k l, used k → used l → (i.bank.zone k).count = (i.bank.zone l).count →
        (i.bank.zone k).digits.take (i.bank.zone k).count = (i.bank.zone l).digits.take (i.bank.zone l).count → k = l) →
      (∀ k, used k → hits k → (∀ l, used l → hits l → (i.bank.zone l).count ≤ (i.bank.zone k).count) →
        zoneOf i = (i.bank.zone k).zone) ∧
      ((∀ k, used k → ¬hits k) → zoneOf i = i.bank.header.defaultZone))

/-- The charges and the postage of a rated piece, and when the value ceiling ends its rating. When a rating delivers a postage: the
shape is the one found, never UNDERSIZE, the zone the one found; the base is the step's base price plus its zone add times the
zone; the surcharges are the non-machinable surcharge of a LETTER whose sides lie outside the aspect bounds, or any LETTER when
the bounds are out of order, plus the thickness surcharge of a piece thicker than a threshold above 0; the discount is the base
times the descriptor's per-mille value of the discount level, 0 to 3, divided by 1 000 and rounded down; the postage is the
greatest of the charge rounded up to the resolution, the minimum charge and the resolution, and at most the value ceiling. Where
the minimum charge is a multiple of the resolution, so is the postage, which is at least 1. A rating whose class, shape and step
pass ends with VALUE_OVER exactly when that postage exceeds the value ceiling, and otherwise delivers it. -/
def Obligations.ChargesAndPostage : Prop :=
  ∀ (resolution : Nat) (i : RatingInputs), 1 ≤ resolution →
    let shape := shapeOf i.bank.header i.dims
    let inBounds := fun (d : Dimensions) => decide (
      i.bank.header.aspectLow ≤ i.bank.header.aspectHigh ∧
        i.bank.header.aspectLow * min d.length d.height ≤ 10 * max d.length d.height ∧
        10 * max d.length d.height ≤ i.bank.header.aspectHigh * min d.length d.height)
    let surcharges := match i.dims with
      | none => 0
      | some d => (if shape = .letter ∧ inBounds d = false then i.descriptor.nonMachinable else 0) +
        (if 0 < i.descriptor.thicknessThreshold ∧ i.descriptor.thicknessThreshold < d.thickness then
          i.descriptor.thicknessSurcharge else 0)
    let discount := fun (base : Nat) => base * perMilleAt i.descriptor (min i.level i.descriptor.maxDiscountLevel) / 1000
    let priced := fun (raw postage : Nat) => ∃ rounded, rounded % resolution = 0 ∧ raw ≤ rounded ∧
      rounded < raw + resolution ∧ postage = max (max rounded i.descriptor.minCharge) resolution
    (∀ e : ServiceEntry, perMilleAt e 0 = e.perMille0 ∧ perMilleAt e 1 = e.perMille1 ∧ perMilleAt e 2 = e.perMille2 ∧
      perMilleAt e 3 = e.perMille3) ∧
    (∀ (r : RatingResult) (flags : ConditionFlags), rate resolution i = .postage r flags →
      r.shape = shape ∧ r.shape ≠ .undersize ∧ r.zone = zoneOf i ∧
      r.base = (i.bank.step r.stepIndex).basePrice + (i.bank.step r.stepIndex).zoneAdd * r.zone ∧
      r.surcharges = surcharges ∧ r.surcharges ≤ i.descriptor.nonMachinable + i.descriptor.thicknessSurcharge ∧
      r.discount = discount r.base ∧ priced (r.base + r.surcharges - r.discount) r.postage ∧
      r.postage ≤ i.bank.header.valueCeiling ∧ 1 ≤ r.postage ∧
      (i.descriptor.minCharge % resolution = 0 → r.postage % resolution = 0) ∧
      (flags.weightMargin = true ↔ ∃ w, i.reading = some { weight := w, quality := .unsettled }) ∧
      (flags.weightDefaulted = true ↔ i.reading = none ∨ ∃ w, i.reading = some { weight := w, quality := .failed }) ∧
      (flags.dimsDefaulted = true ↔ i.dims = none) ∧ (flags.addressDefaulted = true ↔ i.hasAddress = false)) ∧
    ∀ (k : Nat) (e : StepEntry) (postage : Nat), classFault i = none → acceptsShape i.descriptor shape = true →
      stepFor i (chargeableWeight i shape) = some (k, e) →
      let base := e.basePrice + e.zoneAdd * zoneOf i
      priced (base + surcharges - discount base) postage →
        (i.bank.header.valueCeiling < postage → rate resolution i = .fault .valueOver) ∧
        (postage ≤ i.bank.header.valueCeiling → ∃ flags, rate resolution i = .postage
          { postage := postage, shape := shape, zone := zoneOf i, stepIndex := k, base := base, surcharges := surcharges,
            discount := discount base } flags)

/-- What each store write changes in the non-volatile content. A COMMIT with the piece count below its limit moves the postage from
DR to AR, raises the count by one and fills the lower-numbered empty slot with the new count as serial. A CLOSE empties the slot
of its serial. A SPOIL from a slot empties it and appends a record of its five fields with the reason. A verdict spoil and an
unmatched spoil append their records. A CREDIT raises DR, CT and the credit count, which saturates. A DRAIN removes the oldest
record. An append takes the next sequence; with 48 records, or the counter at its end, it counts in the overflow totals instead. -/
def Obligations.WritesOnTheStore : Prop :=
  (∀ (free postage job dateCode : Nat) (p : PieceNo) (st : Store), st.pc < 4294967295 →
      let o : OpenImprint := { serial := st.pc + 1, piece := p, value := postage, job := job, dateCode := dateCode }
      let moved : Store := { st with dr := st.dr - postage, ar := st.ar + postage, pc := st.pc + 1 }
      (st.open0 = none → st.apply free (.commit postage p job dateCode) = { moved with open0 := some o }) ∧
      (st.open0 ≠ none → st.open1 = none → st.apply free (.commit postage p job dateCode) = { moved with open1 := some o })) ∧
    (∀ (free : Nat) (o : OpenImprint) (reason : SpoilReason) (st : Store),
      (st.open0 = some o → st.apply free (.close o.serial) = { st with open0 := none }) ∧
      ((∀ x, st.open0 = some x → x.serial ≠ o.serial) → st.open1 = some o →
        st.apply free (.close o.serial) = { st with open1 := none }) ∧
      (st.open0 = some o ∨ (∀ x, st.open0 = some x → x.serial ≠ o.serial) ∧ st.open1 = some o →
        st.apply free (.spoilSlot o.serial reason) =
          (st.apply free (.close o.serial)).append reason o.piece (some o.serial) (some o.value) (some o.job)
            (some o.dateCode))) ∧
    (∀ (free serial value job amount sequence : Nat) (p : PieceNo) (reason : SpoilReason) (st : Store),
      st.apply free (.spoilVerdict p serial value job reason) =
        st.append reason p (some serial) (some value) (some job) none ∧
      st.apply free (.spoilUnmatched p) = st.append .verifyUnmatched p none none none none ∧
      st.apply free (.credit amount) =
        { st with dr := st.dr + amount, ct := st.ct + amount, credits := min 65535 (st.credits + 1) } ∧
      st.apply free (.drain sequence) = { st with spoils := st.spoils.tail }) ∧
    ∀ (reason : SpoilReason) (p : PieceNo) (serial value job dateCode : Option Nat) (st : Store),
      (st.spoils.length < 48 → st.sequence < 4294967295 →
        st.append reason p serial value job dateCode =
          { st with sequence := st.sequence + 1, spoils := st.spoils ++
              [{ sequence := st.sequence + 1, reason := reason, piece := p, serial := serial, value := value, job := job,
                 dateCode := dateCode }] }) ∧
      (48 ≤ st.spoils.length ∨ 4294967295 ≤ st.sequence →
        st.append reason p serial value job dateCode =
          { st with overflowCount := min 4294967295 (st.overflowCount + 1),
                    overflowValue := min 281474976710655 (st.overflowValue + value.getD 0) })

/-- The funds and spoil thresholds. With a configuration record present, after the funds levels are judged each mark is set exactly
when the free funds are below its level; FUNDS_LOW or FUNDS_OUT is newly pending only where its mark was clear and its level is
crossed, and is then raised; a held AT_FUNDS_LOW condition is met by FUNDS_LOW. After a change of the number of spoil records
the warn and full marks stand exactly when the list holds 40 and 48, and a newly set mark raises its event. -/
def Obligations.ThresholdsJudged : Prop :=
  (∀ (s : State) (c : Configuration), s.port.config = some c →
      let t := judgeFunds s
      let below := fun level => s.store.dr < s.funds.pledged + level
      let low := below c.warnLevel ∧ s.funds.lowMark = false
      let out := below c.takeFloor ∧ s.funds.outMark = false
      (t.funds.lowMark = true ↔ below c.warnLevel) ∧ (t.funds.outMark = true ↔ below c.takeFloor) ∧
      (.fundsLow ∈ t.port.events ↔ .fundsLow ∈ s.port.events ∨ low) ∧
      (.fundsOut ∈ t.port.events ↔ .fundsOut ∈ s.port.events ∨ out) ∧
      (low → s.intake.quiesce = .atFundsLow → t.intake.quiesce = .none ∧
        t.mode = if s.tracker.pieces = [] then .quiet else .quiescing) ∧
      (¬low ∨ s.intake.quiesce ≠ .atFundsLow → t.mode = s.mode ∧ t.intake = s.intake) ∧
      t.store = s.store ∧ t.funds.pledged = s.funds.pledged ∧ t.funds.writes = s.funds.writes ∧ t.tracker = s.tracker) ∧
    ∀ (s : State) (before : Nat), s.store.spoils.length ≠ before →
      let t := judgeSpoils before s
      (t.funds.warnMark = true ↔ 40 ≤ s.store.spoils.length) ∧ (t.funds.fullMark = true ↔ 48 ≤ s.store.spoils.length) ∧
      (.spoilWarn ∈ t.port.events ↔
        .spoilWarn ∈ s.port.events ∨ 40 ≤ s.store.spoils.length ∧ s.funds.warnMark = false) ∧
      (.spoilFull ∈ t.port.events ↔
        .spoilFull ∈ s.port.events ∨ 48 ≤ s.store.spoils.length ∧ s.funds.fullMark = false) ∧
      t.store = s.store ∧ t.mode = s.mode ∧ t.funds.writes = s.funds.writes

/-- The waiting spoils are asked for again one at a time when a place is open: the entry becomes SPOILING, or the number leaves the
unmatched list. In HALTED, or with 6 writes or more in the queue, the notice of a place changes nothing. Otherwise it does what
follows, and then is the notice in the state so reached: the oldest SPOIL_PENDING entry is asked for, its write joins the queue
and it becomes SPOILING with its reason kept, every other entry and every number stays; with no such entry the oldest number
leaves the unmatched list and its write joins the queue, every entry and every other number stays; with nothing waiting, nothing
changes. So the notice ends with 6 writes or more in the queue or with nothing waiting; the writes already queued keep their
places, the entries keep their places and all their other fields, and nothing else of the state changes. (An entry is named by
its serial, which no two share. A SPOIL_PENDING entry without a reason, which no run reaches, is asked for as UNREADABLE: log
18.) -/
def Obligations.WaitingSpoilsAskedAgain : Prop :=
  ∀ s : State,
    (s.mode = .halted ∨ 6 ≤ s.funds.writes.length → placeNotice s = s) ∧
    (s.mode ≠ .halted → s.funds.writes.length < 6 →
      (∀ e, s.verify.recent.find? (fun x => x.state == .spoilPending) = some e →
        placeNotice s = placeNotice { s with
          verify := { s.verify with recent := s.verify.recent.map (fun x =>
            if x.serial = e.serial then { x with state := .spoiling, reason := some (e.reason.getD .unreadable) } else x) }
          funds := { s.funds with writes := s.funds.writes ++
            [.spoilVerdict e.piece e.serial e.value e.job (e.reason.getD .unreadable)] } }) ∧
      (∀ p rest, (∀ e ∈ s.verify.recent, e.state ≠ .spoilPending) → s.verify.unmatched = p :: rest →
        placeNotice s = placeNotice { s with
          verify := { s.verify with unmatched := rest }
          funds := { s.funds with writes := s.funds.writes ++ [.spoilUnmatched p] } }) ∧
      ((∀ e ∈ s.verify.recent, e.state ≠ .spoilPending) → s.verify.unmatched = [] → placeNotice s = s) ∧
      (6 ≤ (placeNotice s).funds.writes.length ∨
        ((∀ e ∈ (placeNotice s).verify.recent, e.state ≠ .spoilPending) ∧ (placeNotice s).verify.unmatched = []))) ∧
    (∃ more, (placeNotice s).funds.writes = s.funds.writes ++ more) ∧
    (∃ asked, s.verify.unmatched = asked ++ (placeNotice s).verify.unmatched) ∧
    (placeNotice s).verify.recent.map (fun e => (e.piece, e.serial, e.value, e.job)) =
      s.verify.recent.map (fun e => (e.piece, e.serial, e.value, e.job)) ∧
    { placeNotice s with verify := s.verify, funds := { (placeNotice s).funds with writes := s.funds.writes } } = s

/-- What power-up and the resets leave. POWER_UP in every state, and RESET_PIN and HEAD_RESET with power, complete: SETUP; every
block at its reset values; one CLEAR for the engine; the relay at bypass, switching after a reset that found it through or
switching; the store kept, the write in progress whole or absent (log 8); a message being sent to the engine, or broken off by a
loss of power, ended with CUT; HEAD_RESET answered ACCEPTED with the mode and the attach state before it. The model's choices:
POWER_UP of a head with power is a loss and a return (log 7), a message broken off at a loss gets its CUT at the power-up (log
33), a message is being sent whenever the send queue holds one (log 35), the alert marks of HEAD_RESET's answer are those before
the reset (log 14), the warn and full marks are clear until the start-up read (log 19), the outputs and the queue are kept (logs
13, 30). -/
def Obligations.ResetsAndPowerUp : Prop :=
  ∀ (c : Instr) (s : State), c = .powerUp ∨ s.powered = true ∧ (c = .resetPin ∨ c = .headReset) →
    ∃ t, exec c s = .next t ∧ t.powered = true ∧ t.mode = .setup ∧
      t.loop = { LoopPort.initial with switching :=
        if c ≠ .powerUp ∧ (s.loop.relay = .through ∨ s.loop.switching ≠ none) then some .reset else none } ∧
      t.intake = { jobs := [], closing := [], passing := [], feedHold := false, quiesce := .none, duplicates := 0 } ∧
      t.tracker = { position := 0, pieces := [], lastFault := none, nextTag := 0 } ∧
      t.rates = { slot0 := BankSlot.blank, slot1 := BankSlot.blank, switchPoint := none, notReady := false } ∧
      t.engine = none ∧
      t.funds = { pledged := 0, writes := [], startup := .reading, lowMark := false, outMark := false, warnMark := false,
                  fullMark := false } ∧
      t.imprint = { path := [], sendQueue := [.clear], receiver := .outside } ∧
      t.verify = { recent := [], unmatched := [] } ∧
      t.port = { config := none, events := [], lastReported := [], latch := none } ∧
      (t.store = s.store ∨ ∃ w rest, s.funds.writes = w :: rest ∧ t.store = s.store.apply s.freeCount w) ∧
      (s.imprint.sendQueue ≠ [] ∨ s.out.engineOut = some .broken → t.out.engineOut = some .cut) ∧
      (s.imprint.sendQueue = [] → s.out.engineOut ≠ some .broken → t.out.engineOut = s.out.engineOut) ∧
      (c = .headReset → t.out.answer = some {
        verdict := .accepted, urgent := urgentLine s.port.events, routine := routineLine s.port.events,
        further := .operation s.mode s.loop.attach, data := .nothing }) ∧
      (c = .resetPin → t.out.answer = s.out.answer) ∧ t.out.loopOut = s.out.loopOut ∧ t.pending = s.pending

/-- A loss of power keeps the store alone of the controller's state, and without power nothing happens but POWER_UP. POWER_LOSS with
power completes: the controller has no power, the relay is at bypass, the store is kept with the write in progress whole or
absent (log 8), and every other block is at its power-up values but for the send queue, which is empty (log 7). A message being
sent to the engine is broken off without a CUT (model's choice, logs 33 and 35). The last answer, the last frame on loop-out and
the queue of commands are the model's own and stay (logs 13 and 30). Without power every command but POWER_UP leaves the state
unchanged (model's choice, log 7). -/
def Obligations.PowerLossAndNoPower : Prop :=
  (∀ s : State, s.powered = true → ∃ t, exec .powerLoss s = .next t ∧ t.powered = false ∧ t.mode = .setup ∧
      t.loop = LoopPort.initial ∧
      t.intake = { jobs := [], closing := [], passing := [], feedHold := false, quiesce := .none, duplicates := 0 } ∧
      t.tracker = { position := 0, pieces := [], lastFault := none, nextTag := 0 } ∧
      t.rates = { slot0 := BankSlot.blank, slot1 := BankSlot.blank, switchPoint := none, notReady := false } ∧
      t.engine = none ∧
      t.funds = { pledged := 0, writes := [], startup := .reading, lowMark := false, outMark := false, warnMark := false,
                  fullMark := false } ∧
      t.imprint = { path := [], sendQueue := [], receiver := .outside } ∧
      t.verify = { recent := [], unmatched := [] } ∧
      t.port = { config := none, events := [], lastReported := [], latch := none } ∧
      (t.store = s.store ∨ ∃ w rest, s.funds.writes = w :: rest ∧ t.store = s.store.apply s.freeCount w) ∧
      t.out = { s.out with engineOut := if s.imprint.sendQueue = [] then s.out.engineOut else some .broken } ∧
      t.pending = s.pending) ∧
    ∀ (c : Instr) (s : State), s.powered = false → c ≠ .powerUp → exec c s = .next s

/-- The relay's switching periods begin and end, and the controller is deaf meanwhile. JOIN_SWITCH_START in JOINING with a run of 12
IDLE drives the relay through; JOIN_SWITCH_COMPLETE makes the head ATTACHED and RUNNING without a quiesce condition, unless it
is HALTED, sends one CUT and raises ATTACH_CHANGED; LEAVE_SWITCH_START in LEAVING, with both queues empty, no frame being sent
and a run of 12 IDLE, drives the relay to bypass; LEAVE_SWITCH_COMPLETE makes the head BYPASS and STANDBY, unless it is HALTED,
and raises ATTACH_CHANGED; RESET_RELAY_SETTLED ends the period of a reset. Nothing else changes. During a switching period no
symbol, no frame and no loss of the loop changes anything. -/
def Obligations.RelaySwitching : Prop :=
  ∀ s : State, s.powered = true →
    (s.loop.attach = .joining → s.loop.switching = none → 12 ≤ s.loop.idleRun →
      exec .joinSwitchStart s = .next { s with loop := { s.loop with
        relay := .through, switching := some .join, receiver := .outside } }) ∧
    (s.loop.switching = some .join → exec .joinSwitchComplete s = .next (raise .attachChanged { s with
      mode := if s.mode = .halted then .halted else .running
      intake := { s.intake with quiesce := if s.mode = .halted then s.intake.quiesce else .none }
      loop := { s.loop with switching := none, attach := .attached, receiver := .outside }
      out := { s.out with loopOut := some .cut } })) ∧
    (s.loop.attach = .leaving → s.loop.switching = none → s.loop.forward = [] → s.loop.own = [] →
      s.loop.transmitter = .idle → 12 ≤ s.loop.idleRun →
      exec .leaveSwitchStart s = .next { s with loop := { s.loop with
        relay := .bypass, switching := some .leave, receiver := .outside } }) ∧
    (s.loop.switching = some .leave → exec .leaveSwitchComplete s = .next (raise .attachChanged { s with
      mode := if s.mode = .halted then .halted else .standby
      loop := { s.loop with switching := none, attach := .bypass, receiver := .outside } })) ∧
    (s.loop.switching = some .reset →
      exec .resetRelaySettled s = .next { s with loop := { s.loop with switching := none } }) ∧
    (s.loop.switching ≠ none → ∀ c : Instr, lineFrameOf c ≠ none ∨ (∃ octets, c = .badFrame octets) ∨
      (∃ why, c = .frameAbandoned why) ∨ (∃ sym, c = .idleReceived sym ∨ c = .loopReturn sym) ∨ c = .loopLost →
      exec c s = .next s)

/-- A frame sent on loop-out leaves its queue and the arbiter chooses the next. FORWARD_FRAME_SENT while the head of the forward
queue is being sent puts its octets, the check afresh, on loop-out and takes it from the queue; OWN_FRAME_SENT does the same for
the own-frame queue. The transmitter then follows the arbiter's rule: a released head entry first, a held one makes it rest, own
frames only on an empty forward queue. Nothing else changes. (That the choice falls at this row, which takes in the IDLE after
the frame, is the model's choice, log 34.) -/
def Obligations.FramesSent : Prop :=
  ∀ s : State, s.powered = true → s.loop.relay = .through → s.loop.switching = none →
    (∀ e rest, s.loop.transmitter = .sendingForward → s.loop.forward = e :: rest →
      exec .forwardFrameSent s = .next { s with
        loop := { s.loop with forward := rest, transmitter := nextTransmitter rest s.loop.own }
        out := { s.out with loopOut := some (.whole e.frame.octets) } }) ∧
    (∀ f rest, s.loop.transmitter = .sendingOwn → s.loop.own = f :: rest →
      exec .ownFrameSent s = .next { s with
        loop := { s.loop with own := rest, transmitter := nextTransmitter s.loop.forward rest }
        out := { s.out with loopOut := some (.whole f.octets) } })

/-- Reception symbol by symbol, abandoned frames, and the loss of the loop. A symbol outside a frame counts in the IDLE run, an OPEN
begins reception, octets are appended up to 46, CUT, IDLE, a second OPEN and a 47th octet abandon the frame and count it once,
the rest of an over-long frame is ignored; a CLOSE completes the frame, which is counted when it is bad and disposed of when it
is good. Every symbol clears the loop-lost flag. FRAME_ABANDONED does what its cause does, and counts one frame whether or not
one was in reception (model's choice, log 32). LOOP_LOST discards the frame in reception without counting it, sets the run to 0,
raises LOOP_LOST and sets the flag, once until symbols return. (IDLE_RECEIVED and LOOP_RETURN carry the symbol, logs 4 and 28.) -/
def Obligations.SymbolsReceived : Prop :=
  ∀ s : State, s.powered = true → s.loop.switching = none →
    (∀ (c : Instr) (sym : Symbol), c = .idleReceived sym ∨ c = .loopReturn sym →
      let seen := fun (r : Receiver) (bad : Nat) => { s with loop := { s.loop with
        receiver := r
        badFrames := min 65535 (s.loop.badFrames + bad)
        lost := false
        idleRun := if sym = .idle then min 255 (s.loop.idleRun + 1) else 0 } }
      s.loop.badFrames ≤ 65535 →
      (s.loop.receiver = .outside → sym ≠ .opener → exec c s = .next (seen .outside 0)) ∧
      (s.loop.receiver = .outside ∨ s.loop.receiver = .ignoring → sym = .opener → exec c s = .next (seen (.receiving []) 0)) ∧
      (∀ buffer, s.loop.receiver = .receiving buffer →
        (sym = .opener → exec c s = .next (seen (.receiving []) 1)) ∧
        (sym = .idle ∨ sym = .cut → exec c s = .next (seen .outside 1)) ∧
        (∀ b, sym = .octet b → buffer.length < 46 → exec c s = .next (seen (.receiving (buffer ++ [b])) 0)) ∧
        (∀ b, sym = .octet b → 46 ≤ buffer.length → exec c s = .next (seen .ignoring 1)) ∧
        (sym = .closer → badOctets buffer = true → exec c s = .next (seen .outside 1)) ∧
        (sym = .closer → badOctets buffer = false → exec c s = .next (dispose (frameOf buffer) (seen .outside 0)))) ∧
      (s.loop.receiver = .ignoring → (∀ b, sym = .octet b → exec c s = .next (seen .ignoring 0)) ∧
        (sym = .idle ∨ sym = .cut ∨ sym = .closer → exec c s = .next (seen .outside 0)))) ∧
    (∀ why : AbandonCause, s.loop.badFrames ≤ 65535 →
      exec (.frameAbandoned why) s = .next { s with loop := { s.loop with
        receiver := match why with | .cut => .outside | .idle => .outside | .secondOpen => .receiving [] | .tooLong => .ignoring
        badFrames := min 65535 (s.loop.badFrames + 1)
        lost := false
        idleRun := if why = .idle then 1 else 0 } }) ∧
    (s.loop.lost = false → exec .loopLost s =
      .next (raise .loopLost { s with loop := { s.loop with receiver := .outside, idleRun := 0, lost := true } })) ∧
    (s.loop.lost = true → exec .loopLost s = .next s)

/-- What makes a frame bad, and a frame that is bad, the station's own, out of hops, or without a place, in that order. For every
frame row and BAD_FRAME, heard outside a frame: a bad frame is counted and discarded; otherwise a frame of the configured
station is stripped, a frame with hop count 1 dropped, and in the ring with 4 frames in the forward queue it is dropped with
FRAME_DROP; in none of these cases is anything else changed but the run count and the loop-lost flag. A frame that arrives over
the beginning of another counts that one as abandoned (model's choice, log 4). Octets are bad when there are fewer than 6, octet
3 is above 40, their number is not octet 3 plus 6, octet 2 is 0 or above 32, or the last two are not the check of those before;
the check starts from 0xFFFF and takes the bits of each octet from the most significant first, with the generator 0x8005. Good
octets spell kind, origin, hop count and body. The own station is the configured one, and none without a configuration record;
the ring is ATTACHED and LEAVING. -/
def Obligations.FirstTestsOfAFrame : Prop :=
  (∀ octets : List Byte,
      let octet := fun (i : Nat) => octets.getD i 0
      let check := lineCheck (octets.take (octets.length - 2))
      (badOctets octets = true ↔ octets.length < 6 ∨ 40 < (octet 3).toNat ∨ octets.length ≠ (octet 3).toNat + 6 ∨
        (octet 2).toNat = 0 ∨ 32 < (octet 2).toNat ∨
        octets.drop (octets.length - 2) ≠ [BitVec.ofNat 8 (check.toNat / 256), BitVec.ofNat 8 check.toNat]) ∧
      frameOf octets =
        { kind := octet 0, origin := octet 1, hop := octet 2, body := (octets.drop 4).take (octet 3).toNat }) ∧
    (lineCheck [] = 0xFFFF#16 ∧ ∀ (octets : List Byte) (b : Byte), lineCheck (octets ++ [b]) =
      [7, 6, 5, 4, 3, 2, 1, 0].foldl (fun (r : Word16) i =>
        if b.getLsbD i = r.getLsbD 15 then r <<< 1 else (r <<< 1) ^^^ 0x8005#16) (lineCheck octets)) ∧
    (∀ f : Frame, f.bad = true ↔ f.hop.toNat = 0 ∨ 32 < f.hop.toNat ∨ 40 < f.body.length) ∧
    (∀ s : State, (s.inRing = true ↔ s.loop.attach = .attached ∨ s.loop.attach = .leaving) ∧
      ∀ station, s.isOwn station = true ↔ ∃ c, s.port.config = some c ∧ c.station = station) ∧
    ∀ s : State, s.powered = true → s.loop.switching = none → s.loop.badFrames ≤ 65535 →
    let quiet := fun (bad : Nat) => { s with loop := { s.loop with
      receiver := .outside, idleRun := 0, lost := false, badFrames := min 65535 (s.loop.badFrames + bad) } }
    (s.loop.receiver = .outside → ∀ octets, badOctets octets = true → exec (.badFrame octets) s = .next (quiet 1)) ∧
    ∀ (c : Instr) (f : Frame), lineFrameOf c = some f →
      (s.loop.receiver = .outside →
        (f.bad = true → exec c s = .next (quiet 1)) ∧
        (f.bad = false → s.isOwn f.origin.toNat = true → exec c s = .next (quiet 0)) ∧
        (f.bad = false → s.isOwn f.origin.toNat = false → f.hop.toNat = 1 → exec c s = .next (quiet 0)) ∧
        (f.bad = false → s.isOwn f.origin.toNat = false → f.hop.toNat ≠ 1 → s.inRing = true → 4 ≤ s.loop.forward.length →
          exec c s = .next (raise .frameDrop (quiet 0)))) ∧
      (s.loop.receiver = .ignoring → exec c s = exec c { s with loop := { s.loop with receiver := .outside } }) ∧
      ∀ buffer, s.loop.receiver = .receiving buffer → exec c s = exec c { s with loop := { s.loop with
        receiver := .outside
        badFrames := if buffer.isPrefixOf f.octets then s.loop.badFrames else min 65535 (s.loop.badFrames + 1) } }

/-- A frame past the first tests is forwarded in the ring, and only forwarded when of unknown kind, malformed or for no block; what
each kind's body says. For every frame row whose frame passes the first tests, but for a notice handed to the Intake Unit: in
the ring the frame joins the end of the forward queue with its hop count one less and its body unchanged, aside the queue stays
as it is. Heard outside a frame, any frame past the first tests, handed or not, changes in the Loop Port only the IDLE run and
the loop-lost flag, the forward queue, the transmitter, which in the ring follows the arbiter, the own-frame queue only with a
notice, and the bad-frame count only when it is malformed, and then by one, saturating. When its kind is unknown, it is
malformed, or it is FEED HOLD, FEED RESUME or FRANK REPORT, nothing but the Loop Port changes. A frame is of unknown kind when
its kind octet is none of the ten codes; one of the ten kinds is malformed when its origin is not 1 to 30, its length is not the
one its kind and fields require, or a field of its body or of a block lies outside the values chapter 2 gives it, and otherwise
says what its body spells at the offsets of the layout table. -/
def Obligations.FramesForwarded : Prop :=
  (∀ (c : Instr) (f : Frame) (s : State), lineFrameOf c = some f → s.Admits f →
    ∃ t, exec c s = .next t ∧
      ((∀ n, f.reading ≠ .good (.notice n)) → t.loop.forward = s.forwardWith f ∧ t.loop.own = s.loop.own) ∧
      (s.loop.receiver = .outside → t.loop = { s.loop with
        receiver := .outside, idleRun := 0, lost := false, forward := t.loop.forward, own := t.loop.own
        badFrames := if f.reading = .malformed then min 65535 (s.loop.badFrames + 1) else s.loop.badFrames
        transmitter :=
          if s.inRing = true ∧ s.loop.relay = .through ∧ s.loop.transmitter = .idle then
            nextTransmitter t.loop.forward t.loop.own
          else s.loop.transmitter }) ∧
      (s.loop.receiver = .outside → f.reading = .unknownKind ∨ f.reading = .malformed ∨ f.reading = .good .forwardedOnly →
        { t with loop := s.loop } = s)) ∧
    ∀ f : Frame,
      let octet := fun (i : Nat) => (f.body.getD i 0).toNat
      let pair := fun (i : Nat) => octet i * 256 + octet (i + 1)
      let quad := fun (i : Nat) => pair i * 65536 + pair (i + 2)
      let piece : PieceNo := BitVec.ofNat 16 (pair 0)
      let judged := fun (good : Prop) (m : LineMessage) =>
        (good → f.reading = .good m) ∧ (¬good → f.reading = .malformed)
      let measureGood := fun (i : Nat) => 1 ≤ octet (i + 2) ∧ octet (i + 2) ≤ 3 ∧ pair (i + 3) ≤ 1023 ∧ pair (i + 5) ≤ 1023 ∧
        octet (i + 8) ≤ 1
      let measure : Nat → MeasurePart := fun i => {
        weight := pair i
        quality := if octet (i + 2) = 1 then .settled else if octet (i + 2) = 2 then .unsettled else .failed
        length := pair (i + 3), height := pair (i + 5), thickness := octet (i + 7), dimsValid := decide (octet (i + 8) = 1) }
      let half := fun (i k : Nat) => if k % 2 = 0 then octet (i + 3 + k / 2) / 16 else octet (i + 3 + k / 2) % 16
      let packed := fun (i : Nat) => (octet (i + 2) + 1) / 2
      let addressGood := fun (i : Nat) => octet i ≤ 31 ∧ octet (i + 1) ≤ 3 ∧ octet (i + 2) ≤ 8 ∧
        (∀ k, k < octet (i + 2) → half i k ≤ 9) ∧ (octet (i + 2) % 2 = 1 → half i (octet (i + 2)) = 15)
      let address : Nat → AddressPart := fun i => {
        serviceClass := octet i, level := octet (i + 1), digits := (List.range (octet (i + 2))).map (half i) }
      let length := f.body.length
      let origin := f.origin.toNat
      let codes : List Byte := [0x11, 0x12, 0x13, 0x21, 0x22, 0x23, 0x31, 0x32, 0x33, 0x41]
      (f.kind ∉ codes → f.reading = .unknownKind) ∧
      (f.kind ∈ codes → origin = 0 ∨ 30 < origin → f.reading = .malformed) ∧
      (1 ≤ origin → origin ≤ 30 →
        (f.kind = 0x11 →
          let hasMeasure := octet 5 % 2 = 1
          let hasAddress := 2 ≤ octet 5
          let second := if hasMeasure then 15 else 6
          judged (6 ≤ length ∧ octet 5 ≤ 3 ∧
              length = 6 + (if hasMeasure then 9 else 0) + (if hasAddress then 3 + packed second else 0) ∧
              octet 2 ≠ 0 ∧ octet 3 ≤ 30 ∧ octet 4 ≤ 30 ∧ (octet 4 ≠ 0 → octet 4 = origin) ∧ (octet 4 = 0 → octet 5 = 0) ∧
              (hasMeasure → measureGood 6) ∧ (hasAddress → addressGood second))
            (.notice { piece := piece, job := octet 2, takeStation := octet 3, releasedBy := octet 4,
                       measure := if hasMeasure then some (measure 6) else none,
                       address := if hasAddress then some (address second) else none })) ∧
        (f.kind = 0x12 → judged (length = 11 ∧ measureGood 2) (.measureReport piece (measure 2))) ∧
        (f.kind = 0x13 → judged (5 ≤ length ∧ length = 5 + packed 2 ∧ addressGood 2) (.addressReport piece (address 2))) ∧
        (f.kind = 0x21 → judged (length = 8 ∧ octet 0 ≠ 0 ∧ octet 1 ≤ 31 ∧ octet 2 ≤ 3 ∧ octet 5 ≤ 15)
          (.jobOpen (octet 0) { defaultClass := octet 1, defaultLevel := octet 2, ceilingWeight := pair 3,
                                defaultZone := octet 5, dateCode := pair 6 })) ∧
        (f.kind = 0x22 → judged (length = 1 ∧ octet 0 ≠ 0) (.jobClose (octet 0))) ∧
        (f.kind = 0x23 → judged (length = 4) (.rateSwitch { first := piece, generation := pair 2 })) ∧
        (f.kind = 0x31 ∨ f.kind = 0x32 → judged (length = 1 ∧ octet 0 ≤ 8) .forwardedOnly) ∧
        (f.kind = 0x33 → judged (length = 12 ∧
          (octet 2 = 1 ∧ octet 3 = 0 ∧ quad 4 ≠ 0 ∧ quad 8 ≠ 0 ∨
            octet 2 = 2 ∧ (octet 3 = 1 ∨ octet 3 = 2 ∨ octet 3 = 3) ∧ quad 4 = 0 ∧ quad 8 ≠ 0 ∨
            octet 2 = 3 ∧ (octet 3 = 4 ∨ octet 3 = 5) ∧ quad 4 = 0 ∧ quad 8 = 0 ∨
            octet 2 = 3 ∧ octet 3 = 6 ∧ quad 4 = 0)) .forwardedOnly) ∧
        (f.kind = 0x41 → judged (length = 4 ∧ 1 ≤ octet 2 ∧ octet 2 ≤ 30 ∧ 1 ≤ octet 3 ∧ octet 3 ≤ 4)
          (.verifyReport piece (octet 2) (if octet 3 = 1 then .good else if octet 3 = 2 then .unreadable
            else if octet 3 = 3 then .valueMismatch else .notSeen))))

/-- A measure report acts on its record by the record's state. A MEASURE REPORT handed in any head mode and attach state: in TAKEN
without a measure part it is attached, and the record becomes READY when the address part is held; a held part is replaced in
TAKEN and READY and DUP_REPORT set; in READY without one it is attached and WEIGHT_DEFAULTED and DIMS_DEFAULTED are cleared; in
later states it is discarded and LATE_DATA set. With no record of its piece number it has no effect on the Piece Tracker.
Nothing else changes but the Loop Port. -/
def Obligations.MeasureReportHandled : Prop :=
  ∀ (x : LineFrame) (p : PieceNo) (m : MeasurePart) (s : State),
    s.Admits (lineFrame (kindCode .measureReport) x) →
    (lineFrame (kindCode .measureReport) x).reading = .good (.measureReport p m) → s.tracker.Sound →
    ∃ t, exec (.measureReport x) s = .next t ∧ { t with loop := s.loop, tracker := s.tracker } = s ∧
      ((∀ r ∈ s.tracker.pieces, r.piece ≠ p) → t.tracker = s.tracker) ∧
      ∀ r ∈ s.tracker.pieces, r.piece = p →
        ∃ r', t.tracker = { s.tracker with pieces := s.tracker.pieces.map (fun q => if q.piece = p then r' else q) } ∧
          (r.state = .taken → r.measure = none → r' = { r with
            measure := some m, state := if r.address = none then .taken else .ready }) ∧
          (r.state = .taken ∨ r.state = .ready → r.measure ≠ none → r' = { r with
            measure := some m, flags := { r.flags with dupReport := true } }) ∧
          (r.state = .ready → r.measure = none → r' = { r with
            measure := some m, flags := { r.flags with weightDefaulted := false, dimsDefaulted := false } }) ∧
          (r.state ≠ .taken → r.state ≠ .ready → r' = { r with flags := { r.flags with lateData := true } })

/-- An address report acts on its record as a measure report does, with the address part. An ADDRESS REPORT handed in any head mode
and attach state: attached in TAKEN, the record becoming READY when the measure part is held; a held part replaced in TAKEN and
READY with DUP_REPORT; attached in READY without one, clearing ADDRESS_DEFAULTED; discarded with LATE_DATA in later states; no
effect without a record. A report with no digits is attached as any other. -/
def Obligations.AddressReportHandled : Prop :=
  ∀ (x : LineFrame) (p : PieceNo) (m : AddressPart) (s : State),
    s.Admits (lineFrame (kindCode .addressReport) x) →
    (lineFrame (kindCode .addressReport) x).reading = .good (.addressReport p m) → s.tracker.Sound →
    ∃ t, exec (.addressReport x) s = .next t ∧ { t with loop := s.loop, tracker := s.tracker } = s ∧
      ((∀ r ∈ s.tracker.pieces, r.piece ≠ p) → t.tracker = s.tracker) ∧
      ∀ r ∈ s.tracker.pieces, r.piece = p →
        ∃ r', t.tracker = { s.tracker with pieces := s.tracker.pieces.map (fun q => if q.piece = p then r' else q) } ∧
          (r.state = .taken → r.address = none → r' = { r with
            address := some m, state := if r.measure = none then .taken else .ready }) ∧
          (r.state = .taken ∨ r.state = .ready → r.address ≠ none → r' = { r with
            address := some m, flags := { r.flags with dupReport := true } }) ∧
          (r.state = .ready → r.address = none → r' = { r with
            address := some m, flags := { r.flags with addressDefaulted := false } }) ∧
          (r.state ≠ .taken → r.state ≠ .ready → r' = { r with flags := { r.flags with lateData := true } })

/-- A JOB OPEN is written, replaces a job without pieces, or conflicts. A JOB OPEN of a job in the table without pieces in the piece
table replaces its parameters, makes it OPEN and takes it from the closing order; with pieces, or with no free and no reusable
place, the table is left and JOB_CONFLICT raised; a new job is added while fewer than 4 places are taken, and otherwise takes
the place of the oldest CLOSED record that has no pieces. The places are not numbered in the model, and a new record stands at
the end of the list (model's choice, log 16). Nothing else changes but the Loop Port. -/
def Obligations.JobOpenHandled : Prop :=
  ∀ (x : LineFrame) (n : Nat) (params : JobParams) (s : State), s.Admits (lineFrame (kindCode .jobOpen) x) →
    (lineFrame (kindCode .jobOpen) x).reading = .good (.jobOpen n params) →
    ∃ t, exec (.jobOpen x) s = .next t ∧ { t with loop := s.loop, intake := s.intake, port := s.port } = s ∧
      let record : JobRecord := { number := n, params := params, isOpen := true }
      let put := fun (old : Nat) => { s.intake with
        jobs := s.intake.jobs.map (fun j => if j.number = old then record else j)
        closing := s.intake.closing.filter (fun k => k != old) }
      let known := ∃ j ∈ s.intake.jobs, j.number = n
      let busy := fun (k : Nat) => ∃ r ∈ s.tracker.pieces, r.job = k
      let conflict := t.intake = s.intake ∧ t.port = (raise .jobConflict s).port
      (known → ¬busy n → t.intake = put n ∧ t.port = s.port) ∧ (known → busy n → conflict) ∧
      (¬known → s.intake.jobs.length < 4 → t.intake = { s.intake with jobs := s.intake.jobs ++ [record] } ∧ t.port = s.port) ∧
      (¬known → 4 ≤ s.intake.jobs.length → (∀ k ∈ s.intake.closing, busy k) → conflict) ∧
      ∀ front old back, ¬known → 4 ≤ s.intake.jobs.length → s.intake.closing = front ++ old :: back →
        (∀ k ∈ front, busy k) → ¬busy old → t.intake = put old ∧ t.port = s.port

/-- A JOB CLOSE closes an OPEN job, and meets a held AT_JOB_CLOSE condition of its number. A JOB CLOSE of a job in the table as OPEN
sets it CLOSED and puts it at the end of the closing order; for any other job number the table and the order are left. When the
head holds AT_JOB_CLOSE for that number, in the table or not, it becomes QUIESCING, or QUIET with QUIET_REACHED when it holds no
piece, and the condition becomes none; otherwise mode and condition are left. Nothing else changes but the Loop Port. A job is
OPEN when its record in the table says so, and its parameters are those of its record. -/
def Obligations.JobCloseHandled : Prop :=
  (∀ (s : State) (n : Nat),
      (s.jobIsOpen n = true ↔ ∃ j, s.intake.jobs.find? (fun x => x.number == n) = some j ∧ j.isOpen = true) ∧
      ∀ j, s.intake.jobs.find? (fun x => x.number == n) = some j → s.jobParams n = j.params) ∧
    ∀ (x : LineFrame) (n : Nat) (s : State), s.Admits (lineFrame (kindCode .jobClose) x) →
    (lineFrame (kindCode .jobClose) x).reading = .good (.jobClose n) →
    ∃ t, exec (.jobClose x) s = .next t ∧
      { t with loop := s.loop, intake := s.intake, port := s.port, mode := s.mode } = s ∧
      (s.jobIsOpen n = true → t.intake.jobs = s.intake.jobs.map (fun j => if j.number = n then { j with isOpen := false } else j) ∧
        t.intake.closing = s.intake.closing ++ [n]) ∧
      (s.jobIsOpen n = false → t.intake.jobs = s.intake.jobs ∧ t.intake.closing = s.intake.closing) ∧
      t.jobIsOpen n = false ∧
      t.intake.passing = s.intake.passing ∧ t.intake.feedHold = s.intake.feedHold ∧
      t.intake.duplicates = s.intake.duplicates ∧
      (s.intake.quiesce ≠ .atJobClose n → t.intake.quiesce = s.intake.quiesce ∧ t.mode = s.mode ∧ t.port = s.port) ∧
      (s.intake.quiesce = .atJobClose n → t.intake.quiesce = .none ∧
        (s.tracker.pieces ≠ [] → t.mode = .quiescing ∧ t.port = s.port) ∧
        (s.tracker.pieces = [] → t.mode = .quiet ∧ t.port = (raise .quietReached s).port))

/-- A RATE SWITCH is recorded as the switch point and does nothing else. In every head mode and attach state a RATE SWITCH handed to
the Rate Store replaces the switch point and clears the not-ready mark; no slot changes, no event is raised, nothing else
changes but the Loop Port. -/
def Obligations.RateSwitchRecorded : Prop :=
  ∀ (x : LineFrame) (point : SwitchPoint) (s : State), s.Admits (lineFrame (kindCode .rateSwitch) x) →
    (lineFrame (kindCode .rateSwitch) x).reading = .good (.rateSwitch point) →
    ∃ t, exec (.rateSwitch x) s = .next t ∧ { t with loop := s.loop, rates := s.rates } = s ∧
      t.rates = { s.rates with switchPoint := some point, notReady := false }

/-- A verdict acts on the newest entry of its piece, or is unmatched. A VERIFY REPORT for another head, a later verdict on an entry,
and an unmatched GOOD change nothing but the Loop Port. A first GOOD makes the entry GOOD. A first bad verdict asks for a SPOIL
from the verdict: admitted, below 6 writes and not HALTED, the entry is SPOILING and the write joins the queue; refused, it is
SPOIL_PENDING with the reason. An unmatched bad verdict raises VERIFY_UNMATCHED and asks for a SPOIL unmatched: admitted it
joins the queue, refused the piece number waits while the unmatched list holds fewer than 4. -/
def Obligations.VerifyReportHandled : Prop :=
  ∀ (x : LineFrame) (p : PieceNo) (station : Nat) (v : VerifyVerdict) (s : State),
    s.Admits (lineFrame (kindCode .verifyReport) x) →
    (lineFrame (kindCode .verifyReport) x).reading = .good (.verifyReport p station v) →
    ∃ t, exec (.verifyReport x) s = .next t ∧
      { t with loop := s.loop, verify := s.verify, funds := s.funds, port := s.port } = s ∧
      let place := s.mode ≠ .halted ∧ s.funds.writes.length < 6
      let same := t.verify = s.verify ∧ t.funds = s.funds ∧ t.port = s.port
      let marked := fun (serial : Nat) (state : VerifyState) (reason : Option SpoilReason) =>
        { s.verify with
          recent := s.verify.recent.map (fun e =>
            if e.serial = serial then { e with state := state, reason := reason } else e) }
      (s.isOwn station = false → same) ∧
      (∀ front e back, s.isOwn station = true → s.verify.recent = front ++ e :: back → e.piece = p →
        (∀ y ∈ back, y.piece ≠ p) →
        (e.state ≠ .pending → same) ∧
        (e.state = .pending → v = .good → t.verify = marked e.serial .good none ∧ t.funds = s.funds ∧ t.port = s.port) ∧
        ∀ reason, e.state = .pending →
          (v = .unreadable ∧ reason = .unreadable ∨ v = .valueMismatch ∧ reason = .valueMismatch ∨
            v = .notSeen ∧ reason = .notSeen) →
          (place → t.verify = marked e.serial .spoiling (some reason) ∧ t.port = s.port ∧
            t.funds = { s.funds with writes := s.funds.writes ++ [.spoilVerdict e.piece e.serial e.value e.job reason] }) ∧
          (¬place → t.verify = marked e.serial .spoilPending (some reason) ∧ t.funds = s.funds ∧ t.port = s.port)) ∧
      (s.isOwn station = true → (∀ y ∈ s.verify.recent, y.piece ≠ p) →
        (v = .good → same) ∧
        (v ≠ .good → t.port = (raise .verifyUnmatched s).port ∧
          (place → t.verify = s.verify ∧ t.funds = { s.funds with writes := s.funds.writes ++ [.spoilUnmatched p] }) ∧
          (¬place → t.funds = s.funds ∧ t.verify = { s.verify with unmatched :=
            if s.verify.unmatched.length < 4 then s.verify.unmatched ++ [p] else s.verify.unmatched })))

/-- A duplicate is counted, an original not taken enters the passing list, a release not taken changes nothing. For a notice in any
head mode and attach state: a notice whose piece is in the table is counted as a duplicate, saturating; an original that fails
one of tests 1 to 6 of R34 enters the passing list at its end with the present position, any entry of its number and, when 8
would be passed, the oldest removed; a release without a passing-list entry, or failing a test of R38, changes nothing. Each
goes on in the ring with its take field as it arrived, and the controller gives no frame of its own. Nothing else changes but
the Loop Port. -/
def Obligations.NoticeNotTaken : Prop :=
  ∀ (c : Instr) (f : Frame) (n : Notice) (s : State), lineFrameOf c = some f → s.Admits f →
    f.reading = .good (.notice n) → (∀ e ∈ s.loop.forward, e.held = false) →
    ∃ t, exec c s = .next t ∧
      ((∃ r ∈ s.tracker.pieces, r.piece = n.piece) → { t with loop := s.loop, intake := s.intake } = s ∧
        t.intake = { s.intake with duplicates := if s.intake.duplicates < 65535 then s.intake.duplicates + 1 else 65535 } ∧
        t.loop.forward = s.forwardWith f ∧ t.loop.own = s.loop.own) ∧
      ((∀ r ∈ s.tracker.pieces, r.piece ≠ n.piece) → n.releasedBy = 0 → ¬s.TakesOriginal n →
        { t with loop := s.loop, intake := s.intake } = s ∧ t.loop.forward = s.forwardWith f ∧ t.loop.own = s.loop.own ∧
        let others := s.intake.passing.filter (fun e => e.piece != n.piece)
        t.intake = { s.intake with passing := others.drop (others.length - 7) ++
          [{ piece := n.piece, job := n.job, reference := s.tracker.position }] }) ∧
      ((∀ r ∈ s.tracker.pieces, r.piece ≠ n.piece) → n.releasedBy ≠ 0 →
        (∀ e ∈ s.intake.passing, e.piece = n.piece → ¬s.TakesRelease n e) →
        { t with loop := s.loop } = s ∧ t.loop.forward = s.forwardWith f ∧ t.loop.own = s.loop.own)

/-- A notice that passes every other test and finds no bank is not taken. An original or a release that passes the other tests and
for which the Rate Store has no bank is not taken: BANK_NOT_READY is raised and the not-ready mark set if it was clear, no slot
and no switch point changes; the original enters the passing list; the notice goes on with its take field as it arrived, and the
controller gives no frame of its own. -/
def Obligations.NoticeWithoutBank : Prop :=
  ∀ (c : Instr) (f : Frame) (n : Notice) (s : State), lineFrameOf c = some f → s.Admits f →
    f.reading = .good (.notice n) → (∀ e ∈ s.loop.forward, e.held = false) →
    (∀ r ∈ s.tracker.pieces, r.piece ≠ n.piece) → (askBank n.piece s).2 = none →
    (n.releasedBy = 0 → s.TakesOriginal n →
      ∃ t, exec c s = .next t ∧ t.loop.forward = s.forwardWith f ∧ t.loop.own = s.loop.own ∧
        t.rates = { s.rates with notReady := true } ∧
        t.port = (if s.rates.notReady then s.port else (raise .bankNotReady s).port) ∧
        (let others := s.intake.passing.filter (fun e => e.piece != n.piece)
         t.intake = { s.intake with passing := others.drop (others.length - 7) ++
           [{ piece := n.piece, job := n.job, reference := s.tracker.position }] }) ∧
        { t with loop := s.loop, intake := s.intake, rates := s.rates, port := s.port } = s) ∧
    ∀ e, n.releasedBy ≠ 0 → s.intake.passing.find? (fun x => x.piece == n.piece) = some e → s.TakesRelease n e →
      ∃ t, exec c s = .next t ∧ t.loop.forward = s.forwardWith f ∧ t.loop.own = s.loop.own ∧
        t.rates = { s.rates with notReady := true } ∧
        t.port = (if s.rates.notReady then s.port else (raise .bankNotReady s).port) ∧
        { t with loop := s.loop, rates := s.rates, port := s.port } = s

/-- What a take does. An original that passes every test of R34, or a release that passes every test of R38, is taken. The record
joins the table in reference order with the notice's piece and job and the bank binding given: for an original, the present
position as reference, no parts, TAKEN, or READY on defaults when the cutoff is already reached; for a release, the entry's
reference, the parts the notice carries, RELEASE_TAKEN, READY with both parts and TAKEN otherwise. Its passing-list entry goes.
In the ring the notice goes on with this station in its take field. When the count rises to the hold level with the flag clear,
the flag is set and a FEED HOLD with that count is queued if the head is ATTACHED and the queue has room, and dropped with
FRAME_DROP if it is ATTACHED and the queue is full. Nothing else changes but what the bank switch and the Loop Port change. -/
def Obligations.NoticeTaken : Prop :=
  ∀ (c : Instr) (f : Frame) (n : Notice) (s : State), lineFrameOf c = some f → s.Admits f →
    f.reading = .good (.notice n) → (∀ e ∈ s.loop.forward, e.held = false) →
    (∀ r ∈ s.tracker.pieces, r.piece ≠ n.piece) → ∀ b, (askBank n.piece s).2 = some b →
    ∀ r : PieceRecord,
    (n.releasedBy = 0 ∧ s.TakesOriginal n ∧
        (let fresh : PieceRecord := {
           tag := s.tracker.nextTag, piece := n.piece, job := n.job, reference := s.tracker.position, binding := b,
           measure := none, address := none, rating := none, serial := none, state := .taken,
           flags := ConditionFlags.none }
         r = if reached s.tracker.position (s.checkpoints fresh).cutoff then
             { fresh with
                 state := .ready
                 flags := { ConditionFlags.none with
                   weightDefaulted := true, dimsDefaulted := true, addressDefaulted := true } }
           else fresh) ∨
      n.releasedBy ≠ 0 ∧ ∃ e, s.intake.passing.find? (fun x => x.piece == n.piece) = some e ∧ s.TakesRelease n e ∧
        r = {
              tag := s.tracker.nextTag, piece := n.piece, job := n.job, reference := e.reference, binding := b,
              measure := n.measure, address := n.address, rating := none, serial := none,
              state := if n.measure ≠ none ∧ n.address ≠ none then .ready else .taken,
              flags := { ConditionFlags.none with releaseTaken := true } }) →
    ∃ t, exec c s = .next t ∧
      (∃ front back, s.tracker.pieces = front ++ back ∧
        t.tracker = { s.tracker with pieces := front ++ r :: back, nextTag := s.tracker.nextTag + 1 } ∧
        (∀ q ∈ front, reached r.reference q.reference = true) ∧
        ∀ q, back.head? = some q → reached r.reference q.reference = false) ∧
      t.rates = (askBank n.piece s).1.rates ∧
      (let holds := s.tracker.pieces.length + 1 = s.conf.holdLevel ∧ s.intake.feedHold = false
       t.intake = { s.intake with
         passing := s.intake.passing.filter (fun e => e.piece != n.piece)
         feedHold := if holds then true else s.intake.feedHold } ∧
       t.loop.own = (if holds ∧ s.loop.attach = .attached ∧ s.loop.own.length < 8 then
         s.loop.own ++ [ownFrame s .feedHold (toOctets 1 s.conf.holdLevel)] else s.loop.own) ∧
       t.port = (if holds ∧ s.loop.attach = .attached ∧ 8 ≤ s.loop.own.length then
         (raise .frameDrop (askBank n.piece s).1).port else (askBank n.piece s).1.port)) ∧
      (s.inRing = true → t.loop.forward = s.loop.forward ++ [{
        held := false, frame := { f with
          hop := f.hop - 1, body := f.body.set 3 (BitVec.ofNat 8 s.conf.station) } }]) ∧
      (s.inRing = false → t.loop.forward = s.loop.forward) ∧
      { t with
          loop := s.loop, tracker := s.tracker, rates := s.rates, intake := s.intake, port := s.port } = s

/-- A forward pulse adds one to the position, a reverse pulse leaves it and raises BELT_REVERSE. In every head mode and attach state
a forward pulse raises the transport position by one, wrapping from 16 777 215 to 0, and changes nothing else; a reverse pulse
leaves the position and raises BELT_REVERSE, and changes nothing else; power-up and reset set the position to 0. -/
def Obligations.PulsesCounted : Prop :=
  (∀ s : State, s.powered = true →
      exec .encoderPulseReverse s = .next (raise .beltReverse s) ∧
      ∃ t, exec .encoderPulseForward s = .next t ∧ { t with tracker := s.tracker } = s ∧
        t.tracker = { s.tracker with position := t.tracker.position } ∧
        t.tracker.position.toNat = (if s.tracker.position.toNat = 16777215 then 0 else s.tracker.position.toNat + 1)) ∧
    ∀ (c : Instr) (s t : State), c = .powerUp ∨ s.powered = true ∧ (c = .resetPin ∨ c = .headReset) → exec c s = .next t →
      t.tracker.position = 0

/-- When a checkpoint is reached; the cutoff applies defaults in TAKEN and has no effect in any other state. At the reached cutoff
of a record in TAKEN, WEIGHT_DEFAULTED and DIMS_DEFAULTED are set when it holds no measure part, ADDRESS_DEFAULTED when it holds
no address part, and it becomes READY; no part is written and nothing else changes. In any other state the cutoff changes
nothing. A checkpoint is reached at a position when the position minus the checkpoint, modulo 16 777 216, is below 8 388 608. -/
def Obligations.CutoffDefaults : Prop :=
  (∀ p c : Position, reached p c = true ↔ (p.toNat + 16777216 - c.toNat) % 16777216 < 8388608) ∧
    ∀ (r : PieceRecord) (s : State), s.powered = true → s.tracker.Sound → r ∈ s.tracker.pieces →
    reached s.tracker.position (s.checkpoints r).cutoff = true →
    (r.state = .taken → exec (.cutoff r.piece) s = .next { s with tracker := { s.tracker with
      pieces := s.tracker.pieces.map (fun q => if q.piece = r.piece then { r with
        state := .ready
        flags := { r.flags with
          weightDefaulted := if r.measure = none then true else r.flags.weightDefaulted
          dimsDefaulted := if r.measure = none then true else r.flags.dimsDefaulted
          addressDefaulted := if r.address = none then true else r.flags.addressDefaulted } } else q) } }) ∧
    (r.state ≠ .taken → exec (.cutoff r.piece) s = .next s)

/-- The commit checkpoint commits a rated piece or gives it up. At the reached commit checkpoint: a RATED record whose COMMIT is
admitted (not HALTED, 4 writes or fewer, occupied slots and queued commits below 2, PC below its limit) becomes COMMITTING with
the write at the end of the queue; one not admitted has its pledge returned, the levels judged, PIECE_MISSED raised and is
retired UNFRANKED, PATH_BUSY; one in TAKEN, READY or RATING is missed and retired UNFRANKED, RATING_LATE; in later states
nothing happens. -/
def Obligations.CommitCheckpointTaken : Prop :=
  ∀ (r : PieceRecord) (s : State), s.powered = true → s.tracker.Sound → r ∈ s.tracker.pieces →
    reached s.tracker.position (s.checkpoints r).commit = true →
    let occupied := (if s.store.open0 = none then 0 else 1) + if s.store.open1 = none then 0 else 1
    let queued := s.funds.writes.countP (fun w => match w with | .commit .. => true | _ => false)
    let admitted := s.mode ≠ .halted ∧ s.funds.writes.length ≤ 4 ∧ occupied + queued < 2 ∧ s.store.pc < 4294967295
    let postage := match r.rating with | some x => x.postage | none => 0
    (r.state = .rated → admitted → exec (.commitCheckpoint r.piece) s = .next { s with
      tracker := { s.tracker with
        pieces := s.tracker.pieces.map (fun q => if q.piece = r.piece then { r with state := .committing } else q) }
      funds := { s.funds with
        writes := s.funds.writes ++ [.commit postage r.piece r.job (s.jobParams r.job).dateCode] } }) ∧
    (r.state = .rated → ¬admitted → exec (.commitCheckpoint r.piece) s =
      .next (retire r .frankReport (frankBody r.piece .pathBusy 0 0) (raise .pieceMissed
        (judgeFunds { s with funds := { s.funds with pledged := s.funds.pledged - postage } })))) ∧
    (r.state = .taken ∨ r.state = .ready ∨ r.state = .rating → exec (.commitCheckpoint r.piece) s =
      .next (retire r .frankReport (frankBody r.piece .ratingLate 0 0) (raise .pieceMissed s))) ∧
    (r.state = .committing ∨ r.state = .committed ∨ r.state = .finishing →
      exec (.commitCheckpoint r.piece) s = .next s)

/-- The print checkpoint gives the PRINT, the result deadline settles as no result. At the reached print checkpoint of a COMMITTED
record whose entry is REQUESTED, a PRINT for its serial joins the send queue and the entry passes to STRUCK. At the reached
result deadline of a COMMITTED record its entry goes, a CANCEL joins the send queue, and a SPOIL NO_RESULT is asked for: the
record becomes FINISHING with the write at the end of the queue, or in HALTED is missed and retired UNFRANKED, STORE_FAULT with
its serial. In any other state neither changes anything. -/
def Obligations.PrintAndDeadlineTaken : Prop :=
  ∀ (r : PieceRecord) (s : State), s.powered = true → s.tracker.Sound → r ∈ s.tracker.pieces →
    s.imprint.sendQueue.length < 8 →
    (reached s.tracker.position (s.checkpoints r).print = true →
      (∀ e, r.state = .committed → s.imprint.path.find? (fun x => x.tag == r.tag) = some e → e.phase = .requested →
        exec (.printCheckpoint r.piece) s = .next { s with imprint := { s.imprint with
          path := s.imprint.path.map (fun x => if x.serial = e.serial then { x with phase := .struck } else x)
          sendQueue := s.imprint.sendQueue ++ [.print e.serial] } }) ∧
      (r.state ≠ .committed → exec (.printCheckpoint r.piece) s = .next s)) ∧
    (reached s.tracker.position (s.checkpoints r).deadline = true →
      (∀ serial, r.state = .committed → r.serial = some serial →
        let gone := { s with imprint := { s.imprint with
          path := s.imprint.path.filter (fun x => x.serial != serial)
          sendQueue := s.imprint.sendQueue ++ [.cancel serial] } }
        (s.mode ≠ .halted → exec (.resultDeadline r.piece) s = .next { gone with
          tracker := { s.tracker with
            pieces := s.tracker.pieces.map (fun q => if q.piece = r.piece then { r with state := .finishing } else q) }
          funds := { s.funds with writes := s.funds.writes ++ [.spoilSlot serial .noResult] } }) ∧
        (s.mode = .halted → exec (.resultDeadline r.piece) s =
          .next (retire r .frankReport (frankBody r.piece .storeFault 0 serial) (raise .pieceMissed gone)))) ∧
      (r.state ≠ .committed → exec (.resultDeadline r.piece) s = .next s))

/-- A rating starts on the first READY record, and its result pledges the postage, releases the piece, or is discarded. RATING_START
with an idle engine takes the first READY record of the table, copies its inputs and makes it RATING. The inputs are class,
level and destination of the address part, or the job's defaults and no destination; the weight reading of the measure part, or
none; its dimensions when its dims valid is 1, or none; the job's ceiling weight and default zone; and the binding with the
content of the slot it names. RATING_RESULT makes the engine idle; for a record no longer in RATING nothing else changes. A
postage that the free funds cover is pledged, written into the record with its flags added, the record RATED and the levels
judged; a postage they do not cover is the fault FUNDS_SHORT; a fault writes the last-fault record, raises RATE_FAULT and
retires the record with a release. -/
def Obligations.RatingStartsAndEnds : Prop :=
  (∀ (s : State) (front back : List PieceRecord) (r : PieceRecord), s.powered = true → s.engine = none → s.tracker.Sound →
      s.tracker.pieces = front ++ r :: back → (∀ q ∈ front, q.state ≠ .ready) → r.state = .ready →
      exec .ratingStart s = .next { s with
        engine := some { tag := r.tag, inputs := ratingInputs s r }
        tracker := { s.tracker with pieces := front ++ { r with state := .rating } :: back } }) ∧
    (∀ (s : State) (flight : RatingInFlight), s.powered = true → s.engine = some flight → s.tracker.Sound →
      let idle := { s with engine := none }
      ((∀ r ∈ s.tracker.pieces, r.tag = flight.tag → r.state ≠ .rating) → exec .ratingResult s = .next idle) ∧
      ∀ r ∈ s.tracker.pieces, r.tag = flight.tag → r.state = .rating →
        let faulted := fun (f : RatingFault) => retire r .pieceNotice
          (releaseBody r.piece r.job s.conf.station r.measure r.address)
          (raise .rateFault { idle with tracker := { s.tracker with
            lastFault := some { piece := r.piece, fault := f, serviceClass := flight.inputs.serviceClass } } })
        (∀ f, rate s.conf.resolution flight.inputs = .fault f → exec .ratingResult s = .next (faulted f)) ∧
        ∀ x flags, rate s.conf.resolution flight.inputs = .postage x flags →
          (s.store.dr < s.funds.pledged + x.postage → exec .ratingResult s = .next (faulted .fundsShort)) ∧
          (s.funds.pledged + x.postage ≤ s.store.dr → exec .ratingResult s = .next (judgeFunds { idle with
            funds := { s.funds with pledged := s.funds.pledged + x.postage }
            tracker := { s.tracker with pieces := s.tracker.pieces.map (fun q => if q.piece = r.piece then { r with
              rating := some x, state := .rated, flags := r.flags.union flags } else q) } }))) ∧
    ∀ (s : State) (r : PieceRecord) (j : JobRecord) (b : Bank),
      s.intake.jobs.find? (fun x => x.number == r.job) = some j → (s.rates.slot r.binding.slot).content = some b →
      let i := ratingInputs s r
      (∀ a, r.address = some a → i.serviceClass = a.serviceClass ∧ i.level = a.level ∧ i.destination = a.digits ∧
        i.hasAddress = true) ∧
      (r.address = none → i.serviceClass = j.params.defaultClass ∧ i.level = j.params.defaultLevel ∧ i.destination = [] ∧
        i.hasAddress = false) ∧
      (∀ m, r.measure = some m → i.reading = some { weight := m.weight, quality := m.quality } ∧
        (m.dimsValid = true → i.dims = some { length := m.length, height := m.height, thickness := m.thickness }) ∧
        (m.dimsValid = false → i.dims = none)) ∧
      (r.measure = none → i.reading = none ∧ i.dims = none) ∧
      i.ceilingWeight = j.params.ceilingWeight ∧ i.jobZone = j.params.defaultZone ∧ i.binding = r.binding ∧ i.bank = b

/-- The completion of a COMMIT debits the piece and requests its imprint, or asks for a LATE_COMMIT spoil. COMMIT_WRITE_COMPLETE
applies the front COMMIT, lowers the pledged total by its postage and gives the record in COMMITTING its serial. With the print
checkpoint not reached the record becomes COMMITTED, an IMPRINT REQUEST with its indicium joins the send queue and a REQUESTED
entry the print path. With it reached, outside HALTED, the record becomes FINISHING and a SPOIL LATE_COMMIT of the serial joins
the queue; nothing is sent and no entry is added. The Verify Unit is told of the open place, in the late case before or after
the SPOIL is asked for (log 10). -/
def Obligations.CommitCompletes : Prop :=
  ∀ (postage : Nat) (p : PieceNo) (job dateCode : Nat) (rest : List StoreWrite) (r : PieceRecord) (s : State),
    s.powered = true → s.tracker.Sound → s.funds.writes = .commit postage p job dateCode :: rest →
    r ∈ s.tracker.pieces → r.piece = p → r.state = .committing → s.store.pc < 4294967295 →
    s.imprint.sendQueue.length < 8 →
    let serial := s.store.pc + 1
    let done := { s with
      store := s.store.apply s.freeCount (.commit postage p job dateCode)
      funds := { s.funds with writes := rest, pledged := s.funds.pledged - postage } }
    (reached s.tracker.position (s.checkpoints r).print = false →
      exec .commitWriteComplete s = .next (placeNotice { done with
        freeCount := s.freeCount + 1
        tracker := { s.tracker with pieces := s.tracker.pieces.map (fun q =>
          if q.piece = p then { r with serial := some serial, state := .committed } else q) }
        imprint := { s.imprint with
          path := s.imprint.path ++ [{ serial := serial, tag := r.tag, phase := .requested }]
          sendQueue := s.imprint.sendQueue ++ [.imprintRequest serial (withCheckCode s.conf.seed
            (indiciumHead postage dateCode s.conf.station serial (s.store.ar + postage) r.binding.generation
              (match r.rating with | some x => x.shape | none => .undersize)
              (match r.address with | some a => a.serviceClass | none => (s.jobParams r.job).defaultClass) p))] } })) ∧
    (reached s.tracker.position (s.checkpoints r).print = true → s.mode ≠ .halted →
      ∃ t, exec .commitWriteComplete s = .next t ∧ t.store = done.store ∧ t.funds.pledged = done.funds.pledged ∧
        t.tracker = { s.tracker with pieces := s.tracker.pieces.map (fun q =>
          if q.piece = p then { r with serial := some serial, state := .finishing } else q) } ∧
        .spoilSlot serial .lateCommit ∈ t.funds.writes ∧ (∃ more, t.funds.writes = rest ++ more) ∧
        t.imprint = s.imprint ∧ t.mode = s.mode ∧ t.loop = s.loop ∧ t.rates = s.rates ∧ t.port = s.port ∧
        (let given := fun (state : PieceState) => { s.tracker with pieces := s.tracker.pieces.map (fun q =>
           if q.piece = p then { r with serial := some serial, state := state } else q) }
         let debited := { done with freeCount := s.freeCount + 2, tracker := given .committing }
         let asked := fun (u : State) => { u with tracker := given .finishing, funds := { u.funds with
           writes := u.funds.writes ++ [.spoilSlot serial .lateCommit] } }
         t = placeNotice (asked debited) ∨ t = asked (placeNotice debited)))

/-- The completion of a CLOSE or of a SPOIL from a slot reports and retires the piece. CLOSE_WRITE_COMPLETE applies the front CLOSE,
enters the piece of the FINISHING record with its serial in the recent franked list in PENDING and retires the record FRANKED
with its postage and serial. SPOIL_SLOT_WRITE_COMPLETE applies the front SPOIL, judges the spoil levels and retires the record
SPOILED with the write's reason; an UNCONFIRMED one ends the conversion when no other is left in the queue (read from the rules,
log 31). The Verify Unit is then told of the open place. An entry joins a full list in place of the oldest removable one. -/
def Obligations.ClosingWritesComplete : Prop :=
  ∀ (serial : Nat) (rest : List StoreWrite) (s : State), s.powered = true → s.tracker.Sound →
    let done := fun (w : StoreWrite) => { s with
      store := s.store.apply s.freeCount w, freeCount := s.freeCount + 1, funds := { s.funds with writes := rest } }
    let finishing := fun (r : PieceRecord) => s.tracker.pieces.find? (fun q => q.serial == some serial && q.state == .finishing) =
      some r
    (∀ r, s.funds.writes = .close serial :: rest → finishing r →
      let e : FrankedEntry := { piece := r.piece, serial := serial, job := r.job, state := .pending, reason := none,
                                value := match r.rating with | some x => x.postage | none => 0 }
      exec .closeWriteComplete s = .next (placeNotice (retire r .frankReport (frankBody r.piece .franked e.value serial)
        { done (.close serial) with verify := { s.verify with recent := joinFranked e s.verify.recent } }))) ∧
    (∀ (e : FrankedEntry) (recent : List FrankedEntry),
      let stays := fun (y : FrankedEntry) => y.state = .spoilPending ∨ y.state = .spoiling
      (recent.length < 32 → joinFranked e recent = recent ++ [e]) ∧
      (recent.length = 32 → (∀ y ∈ recent, stays y) → joinFranked e recent = recent) ∧
      ∀ front y back, recent.length = 32 → recent = front ++ y :: back → (∀ z ∈ front, stays z) → ¬stays y →
        joinFranked e recent = front ++ back ++ [e]) ∧
    (∀ reason r, s.funds.writes = .spoilSlot serial reason :: rest → finishing r →
      (reason = .printFailed ∨ reason = .noResult ∨ reason = .lateCommit) →
      exec .spoilSlotWriteComplete s = .next (placeNotice (retire r .frankReport
        (frankBody r.piece (match reason with | .printFailed => .printFailed | .lateCommit => .lateCommit | _ => .noResult)
          0 serial)
        (judgeSpoils s.store.spoils.length (done (.spoilSlot serial reason)))))) ∧
    (s.funds.writes = .spoilSlot serial .unconfirmed :: rest →
      ∃ t, exec .spoilSlotWriteComplete s = .next t ∧ t.store = s.store.apply s.freeCount (.spoilSlot serial .unconfirmed) ∧
        t.tracker = s.tracker ∧ t.mode = s.mode ∧
        (s.funds.startup = .converting → (∀ x, .spoilSlot x .unconfirmed ∉ rest) → t.funds.startup = .inUse) ∧
        (s.funds.startup ≠ .converting ∨ (∃ x, .spoilSlot x .unconfirmed ∈ rest) → t.funds.startup = s.funds.startup) ∧
        (let u := judgeSpoils s.store.spoils.length (done (.spoilSlot serial .unconfirmed))
         t = placeNotice { u with funds := { u.funds with startup := t.funds.startup } }))

/-- The completions of verdict and unmatched spoils, credits and drains. Each applies the front write of its kind and takes it from
the queue, and tells the Verify Unit of the open place. A verdict spoil makes the entry of its serial SPOILED; the three that
change the spoil list judge the spoil levels; a credit judges the funds levels. -/
def Obligations.OtherWritesComplete : Prop :=
  ∀ (rest : List StoreWrite) (s : State), s.powered = true →
    let done := fun (w : StoreWrite) => { s with
      store := s.store.apply s.freeCount w, freeCount := s.freeCount + 1, funds := { s.funds with writes := rest } }
    (∀ p serial value job reason, s.funds.writes = .spoilVerdict p serial value job reason :: rest →
      exec .spoilVerdictWriteComplete s = .next (placeNotice
        (let t := judgeSpoils s.store.spoils.length (done (.spoilVerdict p serial value job reason))
         { t with verify := { t.verify with recent := t.verify.recent.map (fun e =>
            if e.serial = serial then { e with state := .spoiled, reason := none } else e) } }))) ∧
    (∀ p, s.funds.writes = .spoilUnmatched p :: rest → exec .spoilUnmatchedWriteComplete s =
      .next (placeNotice (judgeSpoils s.store.spoils.length (done (.spoilUnmatched p))))) ∧
    (∀ amount, s.funds.writes = .credit amount :: rest → exec .creditWriteComplete s =
      .next (placeNotice (judgeFunds (done (.credit amount))))) ∧
    ∀ sequence, s.funds.writes = .drain sequence :: rest → exec .drainWriteComplete s =
      .next (placeNotice (judgeSpoils s.store.spoils.length (done (.drain sequence))))

/-- A failed store write halts the head and fails every write of the queue in order; the start-up read sets the marks and begins the
conversion. STORE_WRITE_FAILED with a write in the queue completes: the head is HALTED without a quiesce condition, STORE_FAULT
is raised, the queue is emptied, and every write that was in it, the front one first, is failed by the block that asked for it;
the store is left as it was. A failed COMMIT returns its pledge, the levels are judged, and its record in COMMITTING is missed
and retired UNFRANKED, STORE_FAULT, serial 0; a failed CLOSE or slot SPOIL of a record does the same to its FINISHING record
with its serial; a failed verdict spoil waits again with its reason; a failed unmatched spoil's number waits if there is room; a
failed CREDIT, DRAIN or spoil of the conversion does no more. STARTUP_READ_COMPLETE in READING completes: good, it sets the
spoil marks, clears the funds marks and asks for an UNCONFIRMED spoil of each occupied slot, the lower serial first, or opens
the store; failed, it halts the head, raises STORE_FAULT and leaves the store UNREAD. -/
def Obligations.StoreFailureAndStartUp : Prop :=
  (∀ s : State, s.powered = true → s.funds.writes ≠ [] →
      let t := s.funds.writes.foldl failWrite (raise .storeFault { s with
        mode := .halted, intake := { s.intake with quiesce := .none }, funds := { s.funds with writes := [] } })
      exec .storeWriteFailed s = .next t ∧ t.store = s.store ∧ t.mode = .halted ∧ t.intake.quiesce = .none ∧
        t.funds.writes = [] ∧ .storeFault ∈ t.port.events ∧ t.rates.switchPoint = s.rates.switchPoint ∧
        t.loop.attach = s.loop.attach ∧ t.imprint = s.imprint ∧ t.engine = s.engine) ∧
    (∀ u : State,
      (∀ postage p job dateCode,
        let lowered := judgeFunds { u with funds := { u.funds with pledged := u.funds.pledged - postage } }
        (u.tracker.Sound → ∀ r ∈ u.tracker.pieces, r.piece = p → r.state = .committing →
          failWrite u (.commit postage p job dateCode) =
            retire r .frankReport (frankBody p .storeFault 0 0) (raise .pieceMissed lowered)) ∧
        ((∀ r ∈ u.tracker.pieces, r.piece = p → r.state ≠ .committing) →
          failWrite u (.commit postage p job dateCode) = lowered)) ∧
      (∀ serial reason w, w = .close serial ∨ w = .spoilSlot serial reason ∧ reason ≠ .unconfirmed →
        let finishing := u.tracker.pieces.find? (fun q => q.serial == some serial && q.state == .finishing)
        (∀ r, finishing = some r → failWrite u w =
          retire r .frankReport (frankBody r.piece .storeFault 0 serial) (raise .pieceMissed u)) ∧
        (finishing = none → failWrite u w = u)) ∧
      (∀ p serial value job reason, failWrite u (.spoilVerdict p serial value job reason) =
        { u with verify := { u.verify with recent := u.verify.recent.map (fun e =>
          if e.serial = serial then { e with state := .spoilPending, reason := some reason } else e) } }) ∧
      (∀ p, failWrite u (.spoilUnmatched p) = { u with verify := { u.verify with
        unmatched := if u.verify.unmatched.length < 4 then u.verify.unmatched ++ [p] else u.verify.unmatched } }) ∧
      ∀ n, failWrite u (.credit n) = u ∧ failWrite u (.drain n) = u ∧ failWrite u (.spoilSlot n .unconfirmed) = u) ∧
    ∀ s : State, s.powered = true → s.funds.startup = .reading →
      exec (.startupReadComplete false) s = .next (raise .storeFault { s with
        mode := .halted, intake := { s.intake with quiesce := .none }, funds := { s.funds with startup := .unread } }) ∧
      let conversion := fun (writes : List StoreWrite) (startup : Startup) => { s with funds := { s.funds with
        writes := s.funds.writes ++ writes
        startup := startup
        lowMark := false
        outMark := false
        warnMark := decide (40 ≤ s.store.spoils.length)
        fullMark := decide (48 ≤ s.store.spoils.length) } }
      (s.store.open0 = none → s.store.open1 = none →
        exec (.startupReadComplete true) s = .next (conversion [] .inUse)) ∧
      (∀ o, s.store.open0 = some o ∧ s.store.open1 = none ∨ s.store.open0 = none ∧ s.store.open1 = some o →
        exec (.startupReadComplete true) s = .next (conversion [.spoilSlot o.serial .unconfirmed] .converting)) ∧
      ∀ o x, s.store.open0 = some o ∧ s.store.open1 = some x ∨ s.store.open0 = some x ∧ s.store.open1 = some o →
        o.serial < x.serial → exec (.startupReadComplete true) s =
          .next (conversion [.spoilSlot o.serial .unconfirmed, .spoilSlot x.serial .unconfirmed] .converting)

/-- The results of the print engine settle their entry or are late, and messages are sent and discarded. An IMPRINT DONE for a
STRUCK entry asks for the CLOSE; for a REQUESTED entry it gives a CANCEL and asks for a SPOIL PRINT_FAILED; an IMPRINT FAILED
with any engine reason asks for that SPOIL in either phase. The entry goes, and outside HALTED the record becomes FINISHING with
the write at the end of the queue; in HALTED it is missed and retired UNFRANKED, STORE_FAULT with its serial. A result without
an entry changes nothing and raises LATE_RESULT. A message is good when its check matches and it is of one of the two result
types with that type's length. An abandoned message, and a completed one that is not good, change the receiver alone; a good one
is acted on as its result. A symbol acts as on the loop: OPEN begins reception, up to 29 octets are held, CUT, IDLE, a second
OPEN and a 30th octet abandon the message, the rest of an over-long one is ignored, and CLOSE completes it; nothing is counted.
(The row's operand forms: log 6.) IMPRINT_MESSAGE_SENT puts the oldest message's octets on the port and takes it from the queue. -/
def Obligations.EngineResultsHandled : Prop :=
  ∀ s : State, s.powered = true →
    let ended := { s with imprint := { s.imprint with receiver := .outside } }
    (∀ (serial : Word32) (c : Instr), c = .imprintDone serial ∨ (∃ reason, c = .imprintFailed serial reason) →
      ((∀ e ∈ s.imprint.path, e.serial ≠ serial.toNat) → exec c s = .next (raise .lateResult ended)) ∧
      ∀ e r, s.imprint.path.find? (fun x => x.serial == serial.toNat) = some e → s.tracker.Sound → r ∈ s.tracker.pieces →
        r.tag = e.tag → r.state = .committed → s.imprint.sendQueue.length < 8 →
        let early := c = .imprintDone serial ∧ e.phase = .requested
        let w : StoreWrite := if c = .imprintDone serial ∧ e.phase = .struck then .close serial.toNat
          else .spoilSlot serial.toNat .printFailed
        let settled := { s with imprint := {
          receiver := .outside
          path := s.imprint.path.filter (fun x => x.serial != serial.toNat)
          sendQueue := if early then s.imprint.sendQueue ++ [.cancel serial.toNat] else s.imprint.sendQueue } }
        (s.mode ≠ .halted → exec c s = .next { settled with
          tracker := { s.tracker with
            pieces := s.tracker.pieces.map (fun q => if q.piece = r.piece then { r with state := .finishing } else q) }
          funds := { s.funds with writes := s.funds.writes ++ [w] } }) ∧
        (s.mode = .halted → exec c s = .next (retire r .frankReport
          (frankBody r.piece .storeFault 0 (r.serial.getD 0)) (raise .pieceMissed settled)))) ∧
    (∀ why, exec (.imprintMessageDiscarded (.abandoned why)) s = .next { s with imprint := { s.imprint with
      receiver := match why with | .cut => .outside | .idle => .outside | .secondOpen => .receiving [] | .tooLong => .ignoring } }) ∧
    (∀ octets, readEngine octets = none → exec (.imprintMessageDiscarded (.completed octets)) s = .next ended) ∧
    (∀ octets : List Byte,
      let serial := ofOctets ((octets.drop 1).take 4)
      let checked := registerOctets (lineCheck (octets.take (octets.length - 2))) = octets.drop (octets.length - 2)
      (checked → octets.length = 7 → octets.head? = some 0x61 → readEngine octets = some (.done serial) ∧
        exec (.imprintMessageDiscarded (.completed octets)) s = exec (.imprintDone (BitVec.ofNat 32 serial)) s) ∧
      (checked → octets.length = 8 → octets.head? = some 0x62 → readEngine octets = some (.failed serial) ∧
        ∀ reason, exec (.imprintMessageDiscarded (.completed octets)) s =
          exec (.imprintFailed (BitVec.ofNat 32 serial) reason) s) ∧
      (¬checked ∨ ¬(octets.length = 7 ∧ octets.head? = some 0x61 ∨ octets.length = 8 ∧ octets.head? = some 0x62) →
        readEngine octets = none)) ∧
    (∀ sym : Symbol,
      let c := Instr.imprintMessageDiscarded (.symbol sym)
      let heard := fun (r : Receiver) => exec c s = .next { s with imprint := { s.imprint with receiver := r } }
      (s.imprint.receiver = .outside → sym ≠ .opener → heard .outside) ∧
      (sym = .opener → heard (.receiving [])) ∧
      (∀ buffer, s.imprint.receiver = .receiving buffer →
        (sym = .idle ∨ sym = .cut → heard .outside) ∧
        (∀ b, sym = .octet b → buffer.length < 29 → heard (.receiving (buffer ++ [b]))) ∧
        (∀ b, sym = .octet b → 29 ≤ buffer.length → heard .ignoring) ∧
        (sym = .closer → exec c s = exec (.imprintMessageDiscarded (.completed buffer)) s)) ∧
      (s.imprint.receiver = .ignoring → (∀ b, sym = .octet b → heard .ignoring) ∧
        (sym = .idle ∨ sym = .cut ∨ sym = .closer → heard .outside))) ∧
    ∀ m rest, s.imprint.sendQueue = m :: rest → exec .imprintMessageSent s = .next { s with
      imprint := { s.imprint with sendQueue := rest }
      out := { s.out with engineOut := some (.whole m.octets) } }

/-- CONFIGURE is accepted in SETUP with the store open and twelve fields in range, and is refused otherwise. In SETUP with the
start-up state OPEN and every field in range the record is stored whole, the mode becomes STANDBY, the funds levels are judged
and the answer is ACCEPTED. Outside SETUP it is refused WRONG_MODE, in SETUP while the store is READING or CONVERTING STARTING,
and with a field out of range BAD_FIELD with the first such field; a refusal changes nothing but the answer. The alert marks of
the accepted answer are those after FUNDS_LOW and FUNDS_OUT of that judging (the model's reading, log 14). -/
def Obligations.ConfigureJudged : Prop :=
  ∀ (c : Configuration) (s : State), s.powered = true →
    let ranges := [1 ≤ c.station ∧ c.station ≤ 30, 1 ≤ c.distance ∧ c.distance ≤ 4194304,
      2 ≤ c.cutoffLead ∧ c.cutoffLead ≤ c.distance, 1 ≤ c.commitLead ∧ c.commitLead + 1 ≤ c.cutoffLead,
      c.distance + c.resultWindow ≤ 4194304, 1 ≤ c.takeLimit ∧ c.takeLimit ≤ 8,
      1 ≤ c.holdLevel ∧ c.holdLevel ≤ c.takeLimit, c.resumeLevel + 1 ≤ c.holdLevel,
      c.resolution = 1 ∨ c.resolution = 5 ∨ c.resolution = 10 ∨ c.resolution = 50, c.seed ≤ 65535,
      c.takeFloor ≤ 2000000000, c.takeFloor ≤ c.warnLevel ∧ c.warnLevel ≤ 2000000000]
    let refusal := fun (code : RefusalCode) (bad : Option Nat) => { s with out := { s.out with answer := some {
      verdict := .refused code, urgent := urgentLine s.port.events, routine := routineLine s.port.events,
      further := .setup bad s.mode, data := .nothing } } }
    (s.mode ≠ .setup → exec (.configure c) s = .next (refusal .wrongMode none)) ∧
    (s.mode = .setup → s.funds.startup = .reading ∨ s.funds.startup = .converting →
      exec (.configure c) s = .next (refusal .starting none)) ∧
    (s.mode = .setup → s.funds.startup = .inUse →
      (∀ front p back, ranges = front ++ p :: back → (∀ q ∈ front, q) → ¬p →
        exec (.configure c) s = .next (refusal .badField (some (front.length + 1)))) ∧
      ((∀ q ∈ ranges, q) → ∃ t, exec (.configure c) s = .next t ∧
        (let u := judgeFunds { s with mode := .standby, port := { s.port with config := some c } }
         t = { u with out := { s.out with answer := some {
           verdict := .accepted, urgent := urgentLine u.port.events, routine := routineLine u.port.events,
           further := .setup none u.mode, data := .nothing } } }) ∧
        t.port.config = some c ∧ (s.intake.quiesce = .none → t.mode = .standby) ∧ t.loop = s.loop ∧ t.store = s.store))

/-- LOAD_BANK_BLOCK and COMMIT_BANK, with the held ranges of an entry and the eight checks of a commit. LOAD_BANK_BLOCK of an entry
in range is accepted in every mode for an EMPTY, LOADING or READY slot, which becomes LOADING with the entry written into its
content, the blank bank for EMPTY; it is refused SLOT_BUSY for an ACTIVE or RETIRING slot, and BAD_ARGUMENT before that for a
bad slot, part, index or field. COMMIT_BANK without a configuration record is refused WRONG_MODE, for a bad slot BAD_ARGUMENT,
for a slot that fails a check of R87 with the first failing check's code and index; accepted, the slot takes its header's
generation and becomes READY beside an ACTIVE slot, otherwise ACTIVE with BANK_SWITCHED and the mark cleared. A refusal changes
nothing but the answer. An entry is in range when its index and every field lie in the held ranges of R82, for an absent
descriptor the index alone; it replaces the entry at its index whole, a zone-map entry with 0 in the digit places beyond its
count; the blank bank is that of R82. The checks 2 to 8 of R87 are made in their order: the first to fail gives its code, with
the lowest failing index where it concerns entries, and the commit passes when none fails. (The alert marks of the answer are
those after BANK_SWITCHED, the model's reading, log 14. Fields with a named set of values hold no other, log 27.) -/
def Obligations.BanksLoadedAndCommitted : Prop :=
  ∀ s : State, s.powered = true →
    let answered := fun (v : Verdict) (bad : Option Nat) (t : State) => { t with out := { t.out with answer := some {
      verdict := v, urgent := urgentLine t.port.events, routine := routineLine t.port.events,
      further := .setup bad t.mode, data := .nothing } } }
    (∀ (slot index : Nat) (part : BankPart),
      (1 < slot ∨ partGood index part = false →
        exec (.loadBankBlock slot index part) s = .next (answered (.refused .badArgument) none s)) ∧
      ∀ n : SlotNo, slotOf slot = some n → partGood index part = true →
        let b := s.rates.slot n
        (b.state = .active ∨ b.state = .retiring →
          exec (.loadBankBlock slot index part) s = .next (answered (.refused .slotBusy) none s)) ∧
        (b.state = .empty → exec (.loadBankBlock slot index part) s = .next (answered .accepted none { s with
          rates := s.rates.setSlot n { b with state := .loading, content := some (blankBank.write index part) } })) ∧
        (b.state = .loading ∨ b.state = .ready → exec (.loadBankBlock slot index part) s =
          .next (answered .accepted none { s with
            rates := s.rates.setSlot n { b with state := .loading, content := some (b.bank.write index part) } }))) ∧
    (∀ slot : Nat,
      (s.port.config = none → exec (.commitBank slot) s = .next (answered (.refused .wrongMode) none s)) ∧
      ∀ c, s.port.config = some c →
        (1 < slot → exec (.commitBank slot) s = .next (answered (.refused .badArgument) none s)) ∧
        ∀ n : SlotNo, slotOf slot = some n →
          let b := s.rates.slot n
          (b.state ≠ .loading → exec (.commitBank slot) s = .next (answered (.refused .notLoading) none s)) ∧
          (∀ code index, commitChecks c.resolution b = some (code, index) →
            exec (.commitBank slot) s = .next (answered (.refused code) index s)) ∧
          (commitChecks c.resolution b = none → (s.rates.slot n.other).state = .active →
            exec (.commitBank slot) s = .next (answered .accepted none { s with
              rates := s.rates.setSlot n { b with state := .ready, generation := b.bank.header.generation } })) ∧
          (commitChecks c.resolution b = none → (s.rates.slot n.other).state ≠ .active →
            exec (.commitBank slot) s = .next (answered .accepted none (raise .bankSwitched { s with
              rates := { s.rates.setSlot n { b with state := .active, generation := b.bank.header.generation } with
                notReady := false } })))) ∧
    (slotOf 0 = some .zero ∧ slotOf 1 = some .one) ∧
    (∀ (index : Nat) (part : BankPart), partGood index part = true ↔
      match part with
      | .header h => h.generation ≤ 65535 ∧ h.valueCeiling ≤ 99999999 ∧ h.settleMargin ≤ 500 ∧
        1 ≤ h.divisor ∧ h.divisor ≤ 65535 ∧ h.defaultZone ≤ 255 ∧
        (∀ m : SizeLimit, m = h.letterMax ∨ m = h.largeLetterMax → m.length ≤ 1023 ∧ m.height ≤ 1023 ∧ m.thickness ≤ 255) ∧
        h.minLength ≤ 1023 ∧ h.minHeight ≤ 1023 ∧ h.aspectLow ≤ 255 ∧ h.aspectHigh ≤ 255 ∧ h.serviceLimit ≤ 255 ∧
        h.stepLimit ≤ 255 ∧ h.zoneCount ≤ 256
      | .service e => 1 ≤ index ∧ index ≤ 31 ∧ (e.present = true →
        e.minLevel ≤ 3 ∧ e.maxDiscountLevel ≤ 3 ∧ e.firstStep ≤ 255 ∧ 1 ≤ e.stepCount ∧ e.stepCount ≤ 8 ∧
        e.minCharge ≤ 99999999 ∧ e.nonMachinable ≤ 65535 ∧ e.thicknessThreshold ≤ 255 ∧ e.thicknessSurcharge ≤ 65535 ∧
        e.perMille0 ≤ 65535 ∧ e.perMille1 ≤ 65535 ∧ e.perMille2 ≤ 65535 ∧ e.perMille3 ≤ 65535)
      | .step e => index ≤ 127 ∧ e.limit ≤ 32767 ∧ e.basePrice ≤ 16777215 ∧ e.zoneAdd ≤ 65535
      | .zone e => index ≤ 255 ∧ e.count ≤ 8 ∧ e.zone ≤ 255 ∧ e.count ≤ e.digits.length ∧ ∀ d ∈ e.digits.take e.count, d ≤ 9
      | .other _ => False) ∧
    (∀ (b : Bank) (index : Nat), (∀ h, b.write index (.header h) = { b with header := h }) ∧
      (∀ e, b.write index (.service e) = { b with services := b.services.set index e }) ∧
      (∀ e, b.write index (.step e) = { b with steps := b.steps.set index e }) ∧
      ∀ e, b.write index (.zone e) = { b with zones := (b.zones.set index
        { e with digits := e.digits.take e.count ++ List.replicate (8 - e.count) 0 }) }) ∧
    (blankBank.header = {
        generation := 0, valueCeiling := 0, settleMargin := 0, divisor := 1, defaultZone := 0,
        letterMax := ⟨0, 0, 0⟩, largeLetterMax := ⟨0, 0, 0⟩, minLength := 0, minHeight := 0, aspectLow := 0, aspectHigh := 0,
        serviceLimit := 0, stepLimit := 0, zoneCount := 0 } ∧
      blankBank.services.length = 32 ∧ blankBank.steps.length = 128 ∧ blankBank.zones.length = 256 ∧
      (∀ e ∈ blankBank.services, e.present = false) ∧
      (∀ e ∈ blankBank.steps, e = { limit := 0, grain := .fine, basePrice := 0, zoneAdd := 0 }) ∧
      ∀ e ∈ blankBank.zones, e.count = 0 ∧ e.zone = 0) ∧
    ∀ (resolution : Nat) (slot : BankSlot), slot.state = .loading →
      let bank := slot.bank
      let service := fun (i : Nat) => bank.service i
      let used := fun (i : Nat) => 1 ≤ i ∧ i ≤ bank.header.serviceLimit ∧ (service i).present = true
      let rises := fun (i : Nat) => ∀ k, (service i).firstStep ≤ k → k + 1 < (service i).firstStep + (service i).stepCount →
        expandedLimit (bank.step k) < expandedLimit (bank.step (k + 1))
      let mapped := fun (k : Nat) => k < bank.header.zoneCount ∧ 1 ≤ (bank.zone k).count ∧ (bank.zone k).count ≤ 8
      let alike := fun (k l : Nat) => (bank.zone k).count = (bank.zone l).count ∧
        (bank.zone k).digits.take (bank.zone k).count = (bank.zone l).digits.take (bank.zone l).count
      let checks : List (RefusalCode × Prop × (Nat → Prop)) := [
        (.bankLimits, 31 < bank.header.serviceLimit ∨ 127 < bank.header.stepLimit, fun _ => False),
        (.stepRange, False, fun i => used i ∧ bank.header.stepLimit < (service i).firstStep + (service i).stepCount - 1),
        (.stepOrder, False, fun i => used i ∧ ¬rises i),
        (.bankCharge, bank.header.valueCeiling % resolution ≠ 0, fun i => used i ∧
          ((service i).minCharge % resolution ≠ 0 ∨ bank.header.valueCeiling < (service i).minCharge)),
        (.perMille, False, fun i => used i ∧ (1000 < (service i).perMille0 ∨ 1000 < (service i).perMille1 ∨
          1000 < (service i).perMille2 ∨ 1000 < (service i).perMille3)),
        (.zoneDuplicate, False, fun k => mapped k ∧ ∃ l, l < k ∧ mapped l ∧ alike l k),
        (.zoneRange, 15 < bank.header.defaultZone, fun k => mapped k ∧ 15 < (bank.zone k).zone)]
      let passes := fun (x : RefusalCode × Prop × (Nat → Prop)) => ¬x.2.1 ∧ ∀ i, ¬x.2.2 i
      ((∀ x ∈ checks, passes x) → commitChecks resolution slot = none) ∧
      ∀ front x back, checks = front ++ x :: back → (∀ y ∈ front, passes y) →
        (x.2.1 → commitChecks resolution slot = some (x.1, none)) ∧
        (¬x.2.1 → ∀ i, x.2.2 i → (∀ k, k < i → ¬x.2.2 k) → commitChecks resolution slot = some (x.1, some i))

/-- JOIN, LEAVE, QUIESCE and RESUME, accepted and refused. JOIN in STANDBY and BYPASS makes the attach state JOINING; LEAVE in QUIET
and ATTACHED makes it LEAVING; RESUME in RUNNING, QUIESCING or QUIET and not LEAVING makes the head RUNNING without a condition
(LEAVING: log 15); QUIESCE in RUNNING, with NOW or a condition already met, makes the head QUIESCING without a condition, or
QUIET with QUIET_REACHED when it holds no piece, and otherwise holds the condition. In any other mode or attach state each is
refused WRONG_MODE, and a bad QUIESCE argument BAD_ARGUMENT; a refusal changes nothing but the answer. The answer carries the
mode and the attach state after the command, and its alert marks are those after QUIET_REACHED (the model's reading, log 14). -/
def Obligations.ModeCommands : Prop :=
  ∀ s : State, s.powered = true →
    let answered := fun (v : Verdict) (t : State) => { t with out := { t.out with answer := some {
      verdict := v, urgent := urgentLine t.port.events, routine := routineLine t.port.events,
      further := .operation t.mode t.loop.attach, data := .nothing } } }
    let wrong := fun (c : Instr) => exec c s = .next (answered (.refused .wrongMode) s)
    let quiescing := { s with mode := .quiescing, intake := { s.intake with quiesce := .none } }
    let begins := fun (c : Instr) =>
      (s.tracker.pieces ≠ [] → exec c s = .next (answered .accepted quiescing)) ∧
      (s.tracker.pieces = [] → exec c s = .next (answered .accepted (raise .quietReached { quiescing with mode := .quiet })))
    let holds := fun (c : Instr) (q : QuiesceCondition) =>
      exec c s = .next (answered .accepted { s with intake := { s.intake with quiesce := q } })
    (s.mode = .standby ∧ s.loop.attach = .bypass →
      exec .join s = .next (answered .accepted { s with loop := { s.loop with attach := .joining } })) ∧
    (¬(s.mode = .standby ∧ s.loop.attach = .bypass) → wrong .join) ∧
    (s.mode = .quiet ∧ s.loop.attach = .attached →
      exec .leave s = .next (answered .accepted { s with loop := { s.loop with attach := .leaving } })) ∧
    (¬(s.mode = .quiet ∧ s.loop.attach = .attached) → wrong .leave) ∧
    (let may := (s.mode = .running ∨ s.mode = .quiescing ∨ s.mode = .quiet) ∧ s.loop.attach ≠ .leaving
     (may → exec .resume s =
       .next (answered .accepted { s with mode := .running, intake := { s.intake with quiesce := .none } })) ∧
     (¬may → wrong .resume)) ∧
    (s.mode ≠ .running → ∀ q, wrong (.quiesce q)) ∧
    (s.mode = .running →
      begins (.quiesce .now) ∧
      (∀ n, 1 ≤ n → n ≤ 255 →
        (∀ j, s.job? n = some j → j.isOpen = false → begins (.quiesce (.atJobClose n))) ∧
        ((∀ j, s.job? n = some j → j.isOpen = true) → holds (.quiesce (.atJobClose n)) (.atJobClose n))) ∧
      (s.store.dr < s.funds.pledged + s.conf.warnLevel → begins (.quiesce .atFundsLow)) ∧
      (s.funds.pledged + s.conf.warnLevel ≤ s.store.dr → holds (.quiesce .atFundsLow) .atFundsLow) ∧
      ∀ q, q = .atJobClose 0 ∨ (∃ n, 255 < n ∧ q = .atJobClose n) ∨ (∃ code, q = .other code) →
        exec (.quiesce q) s = .next (answered (.refused .badArgument) s))

/-- READ_EVENTS and CLEAR_EVENTS. READ_EVENTS returns the pending set and the highest-priority pending cause, and the last-reported
set becomes the set returned. CLEAR_EVENTS removes the last-reported events from the pending set, empties the last-reported set
and answers with what remains. An event raised between the two survives; a CLEAR_EVENTS with an empty last-reported set removes
nothing. Nothing else changes. (The octet count of the answers is free, log 12; the alert marks of the answer to CLEAR_EVENTS
stand for the moment after the clear, log 14, the model's reading.) -/
def Obligations.EventsReadAndCleared : Prop :=
  ∀ s : State, s.powered = true →
    let answered := fun (d : AnswerData) (t : State) => { t with out := { t.out with answer := some {
      verdict := .accepted, urgent := urgentLine t.port.events, routine := routineLine t.port.events,
      further := .read (Config.answerOctets d), data := d } } }
    let remaining := s.port.events.filter (fun e => decide (e ∉ s.port.lastReported))
    exec .readEvents s = .next (answered (.events s.port.events (highestCause s.port.events))
      { s with port := { s.port with lastReported := s.port.events } }) ∧
    exec .clearEvents s = .next (answered (.remaining remaining)
      { s with port := { s.port with events := remaining, lastReported := [] } }) ∧
    (s.port.lastReported = [] → remaining = s.port.events) ∧
    ∀ (e : Event) (t u : State), exec .readEvents s = .next t → exec .clearEvents (raise e t) = .next u → e ∈ u.port.events

/-- The other read commands. READ_FUNDS latches the nine figures with the index at the first, once the store is read, and is refused
STARTING or STORE_UNREAD before; READ_FUNDS_NEXT returns the figure at the index with its octets and advances, and is refused
NO_SNAPSHOT on an empty latch or after the ninth. READ_PIECE answers for an index to 7 the record at that place with its
checkpoints or none, the position, the count and the default summary, and is refused BAD_ARGUMENT above. READ_BANK_STATE gives
for each slot its state, its binding count and its generation, 0 in EMPTY, the header's as written so far in LOADING, the one
last committed otherwise, and with them the ACTIVE slot, the switch point and the mark; READ_SPOIL_OLDEST (refused as READ_FUNDS
is) answers what it names, and READ_LAST_FAULT the piece number, the fault code 1 to 8 of R100 and the class of the last-fault
record. READ_LINE_COUNTS returns both counts and sets them to 0. Nothing else changes. (The octet count of most answers is free,
log 12; that a refused read and READ_FUNDS answer with 0 octets is the model's choice, log 21.) -/
def Obligations.ReadsAnswered : Prop :=
  ∀ s : State, s.powered = true →
    let answered := fun (v : Verdict) (d : AnswerData) (octets : Nat) (t : State) => { t with out := { t.out with answer := some {
      verdict := v, urgent := urgentLine t.port.events, routine := routineLine t.port.events,
      further := .read octets, data := d } } }
    let given := fun (c : Instr) (d : AnswerData) (t : State) =>
      exec c s = .next (answered .accepted d (Config.answerOctets d) t)
    let refused := fun (c : Instr) (code : RefusalCode) => exec c s = .next (answered (.refused code) .nothing 0 s)
    let open_ := s.funds.startup = .converting ∨ s.funds.startup = .inUse
    (s.funds.startup = .reading → refused .readFunds .starting ∧ refused .readSpoilOldest .starting) ∧
    (s.funds.startup = .unread → refused .readFunds .storeUnread ∧ refused .readSpoilOldest .storeUnread) ∧
    (open_ → exec .readFunds s = .next (answered .accepted .nothing 0 { s with port := { s.port with latch := some {
      index := 0
      figures := [s.store.dr, s.store.ar, s.store.ct, s.store.pc, s.funds.pledged, s.store.credits, s.store.spoils.length,
        s.store.overflowCount, s.store.overflowValue] } } })) ∧
    (s.port.latch = none → refused .readFundsNext .noSnapshot) ∧
    (∀ l, s.port.latch = some l → 9 ≤ l.index → refused .readFundsNext .noSnapshot) ∧
    (∀ l figure octets, s.port.latch = some l → l.figures[l.index]? = some figure →
      [4, 6, 6, 4, 4, 2, 1, 4, 6][l.index]? = some octets →
      exec .readFundsNext s = .next (answered .accepted (.figure figure octets) octets
        { s with port := { s.port with latch := some { l with index := l.index + 1 } } })) ∧
    (∀ index, 7 < index → refused (.readPiece index) .badArgument) ∧
    (∀ index, index ≤ 7 → given (.readPiece index) (.piece
      (match s.tracker.pieces[index]? with
        | some r => some (r, {
            cutoff := r.reference + BitVec.ofNat 24 s.conf.distance - BitVec.ofNat 24 s.conf.cutoffLead
            commit := r.reference + BitVec.ofNat 24 s.conf.distance - BitVec.ofNat 24 s.conf.commitLead
            print := r.reference + BitVec.ofNat 24 s.conf.distance
            deadline := r.reference + BitVec.ofNat 24 s.conf.distance + BitVec.ofNat 24 s.conf.resultWindow })
        | none => none)
      s.tracker.position s.tracker.pieces.length
      (decide (∃ r ∈ s.tracker.pieces,
        r.flags.weightDefaulted = true ∨ r.flags.dimsDefaulted = true ∨ r.flags.addressDefaulted = true))) s) ∧
    (∀ b : BankSlot, b.view.state = b.state ∧ b.view.bound = b.bound ∧ (b.state = .empty → b.view.generation = 0) ∧
      (∀ x, b.state = .loading → b.content = some x → b.view.generation = x.header.generation) ∧
      (b.state = .ready ∨ b.state = .active ∨ b.state = .retiring → b.view.generation = b.generation)) ∧
    given .readBankState (.banks s.rates.slot0.view s.rates.slot1.view
      (if s.rates.slot0.state = .active then some .zero else if s.rates.slot1.state = .active then some .one else none)
      s.rates.switchPoint s.rates.notReady) s ∧
    (let claimed := s.funds.writes.countP (fun w => match w with | .drain _ => true | _ => false)
     open_ → given .readSpoilOldest (.spoil s.store.spoils[claimed]? s.store.spoils.length claimed s.store.sequence) s) ∧
    given .readLineCounts (.lineCounts s.loop.badFrames s.intake.duplicates)
      { s with loop := { s.loop with badFrames := 0 }, intake := { s.intake with duplicates := 0 } } ∧
    (let code := fun (f : RatingFault) => match f with
      | .nullClass => 1 | .classRange => 2 | .classAbsent => 3 | .levelIneligible => 4 | .shapeRefused => 5
      | .overweight => 6 | .valueOver => 7 | .fundsShort => 8
     given .readLastFault (.lastFault (s.tracker.lastFault.map (fun x =>
       { piece := x.piece, code := code x.fault, serviceClass := x.serviceClass }))) s)

/-- CREDIT, DRAIN_SPOIL, and transfers that are no command. CREDIT is admitted to the end of the queue in STANDBY for an amount of
at least 1 that, with the credits queued, carries neither DR above 2 000 000 000 nor CT above its range, while the queue holds
fewer than 6 writes; the first test to fail refuses it with its code. DRAIN_SPOIL is admitted in STANDBY or QUIET for the
sequence of the oldest record no queued DRAIN claims. An unknown code is refused UNKNOWN_COMMAND and a short transfer
BAD_ARGUMENT. A refusal changes nothing but the answer. (The status words of the two refused transfers: log 21.) -/
def Obligations.StoreCommandsAndTransfers : Prop :=
  ∀ s : State, s.powered = true →
    let answered := fun (v : Verdict) (further : Further) (t : State) => { t with out := { t.out with answer := some {
      verdict := v, urgent := urgentLine t.port.events, routine := routineLine t.port.events,
      further := further, data := .nothing } } }
    let refused := fun (c : Instr) (code : RefusalCode) =>
      exec c s = .next (answered (.refused code) (.store s.funds.writes.length) s)
    let admitted := fun (c : Instr) (w : StoreWrite) => exec c s =
      .next (answered .accepted (.store (s.funds.writes.length + 1))
        { s with funds := { s.funds with writes := s.funds.writes ++ [w] } })
    let queued := (s.funds.writes.map (fun w => match w with | .credit amount => amount | _ => 0)).sum
    let claims := s.funds.writes.countP (fun w => match w with | .drain _ => true | _ => false)
    (∀ amount : Word32,
      let c := Instr.credit amount
      let low := s.store.dr + queued + amount.toNat ≤ 2000000000
      let room := s.store.ct + queued + amount.toNat ≤ 281474976710655
      (s.mode ≠ .standby → refused c .wrongMode) ∧
      (s.mode = .standby → amount = 0 → refused c .badAmount) ∧
      (s.mode = .standby → amount ≠ 0 → ¬low → refused c .overCeiling) ∧
      (s.mode = .standby → amount ≠ 0 → low → ¬room → refused c .totalFull) ∧
      (s.mode = .standby → amount ≠ 0 → low → room → 6 ≤ s.funds.writes.length → refused c .queueFull) ∧
      (s.mode = .standby → amount ≠ 0 → low → room → s.funds.writes.length < 6 → admitted c (.credit amount.toNat))) ∧
    (∀ sequence : Nat,
      let c := Instr.drainSpoil sequence
      let may := s.mode = .standby ∨ s.mode = .quiet
      (¬may → refused c .wrongMode) ∧
      (may → s.store.spoils.length ≤ claims → refused c .spoilEmpty) ∧
      ∀ x, may → s.store.spoils[claims]? = some x →
        (x.sequence ≠ sequence → refused c .sequenceMismatch) ∧
        (x.sequence = sequence → 6 ≤ s.funds.writes.length → refused c .queueFull) ∧
        (x.sequence = sequence → s.funds.writes.length < 6 → admitted c (.drain sequence))) ∧
    (∀ code, exec (.unknownCommand code) s = .next (answered (.refused .unknownCommand) .untyped s)) ∧
    exec (.shortTransfer .setup) s = .next (answered (.refused .badArgument) (.setup none s.mode) s) ∧
    exec (.shortTransfer .operation) s = .next (answered (.refused .badArgument) (.operation s.mode s.loop.attach) s) ∧
    exec (.shortTransfer .read) s = .next (answered (.refused .badArgument) (.read 0) s) ∧
    exec (.shortTransfer .store) s = .next (answered (.refused .badArgument) (.store s.funds.writes.length) s)
end

