-- ==== Sys2Proof/Laws/Banks.lean ====
section
/-! SUPPORT. What the parts of a commit's checks find (R83, R87), and the rounding of a charge (R116). -/

namespace Sys2Proof.Machine

/-! ## Descriptors in use (R83) -/

/-- A list increases strictly when each number is below the next. -/
theorem increasing_iff (l : List Nat) : increasing l = true ↔ ∀ j, (h : j + 1 < l.length) → l[j] < l[j + 1] := by
  induction l with
  | nil => simp [increasing]
  | cons a l ih =>
    cases l with
    | nil => simp [increasing]
    | cons c l =>
      simp only [increasing, Bool.and_eq_true, decide_eq_true_eq, ih]
      constructor
      · rintro ⟨first, later⟩ j hj
        cases j with
        | zero => exact first
        | succ j => exact later j (by simpa using hj)
      · intro h
        exact ⟨h 0 (by simp), fun j hj => h (j + 1) (by simpa using hj)⟩

/-- Check 4 for one descriptor: the expanded limits rise from each step of its run to the next. -/
theorem stepOrderGood_iff (b : Bank) (d : ServiceEntry) :
    stepOrderGood b d = true ↔ ∀ k, d.firstStep ≤ k → k + 1 < d.firstStep + d.stepCount →
      expandedLimit (b.step k) < expandedLimit (b.step (k + 1)) := by
  unfold stepOrderGood
  rw [increasing_iff]
  simp only [Bank.run, List.map_map, List.length_map, List.length_range, List.getElem_map, List.getElem_range, Function.comp]
  constructor
  · intro h k low high
    have := h (k - d.firstStep) (by omega)
    rwa [show d.firstStep + (k - d.firstStep) = k by omega,
      show d.firstStep + (k - d.firstStep + 1) = k + 1 by omega] at this
  · intro h j hj
    exact h (d.firstStep + j) (by omega) (by omega)

/-- A present descriptor in use at an index. -/
def Bank.uses (b : Bank) (i : Nat) : Prop :=
  1 ≤ i ∧ i ≤ b.header.serviceLimit ∧ (b.service i).present = true

/-- No descriptor in use fails a check. -/
theorem firstFailing_none (b : Bank) (good : ServiceEntry → Bool) :
    firstFailing b good = none ↔ ∀ i, b.uses i → good (b.service i) = true := by
  unfold firstFailing Bank.servicesInUse Bank.uses
  rw [List.find?_filter, List.find?_range_eq_none]
  constructor
  · rintro h i ⟨low, high, present⟩
    simpa [present, show i ≠ 0 by omega] using h i (by omega)
  · intro h i hi
    by_cases zero : i = 0
    · simp [zero]
    · cases present : (b.service i).present
      · simp
      · simp [h i ⟨by omega, by omega, present⟩]

/-- The descriptor in use of the lowest index that fails a check. -/
theorem firstFailing_some (b : Bank) (good : ServiceEntry → Bool) (i : Nat) (used : b.uses i)
    (fails : good (b.service i) = false) (before : ∀ k, k < i → b.uses k → good (b.service k) = true) :
    firstFailing b good = some i := by
  obtain ⟨low, high, present⟩ := used
  unfold firstFailing Bank.servicesInUse
  rw [List.find?_filter, List.find?_range_eq_some]
  refine ⟨by simp [present, fails]; omega, by simp; omega, ?_⟩
  intro k hk
  by_cases zero : k = 0
  · simp [zero]
  · cases here : (b.service k).present
    · simp
    · simp [before k hk ⟨by omega, by omega, here⟩]

/-! ## Zone-map entries in use (R83) -/

/-- A zone-map entry in use at an index. -/
def Bank.maps (b : Bank) (k : Nat) : Prop :=
  k < b.header.zoneCount ∧ 1 ≤ (b.zone k).count ∧ (b.zone k).count ≤ 8

/-- The zone-map entries in use, each with its index. -/
theorem mem_zonesInUse (b : Bank) (x : Nat × ZoneEntry) : x ∈ b.zonesInUse ↔ b.maps x.1 ∧ x.2 = b.zone x.1 := by
  simp only [Bank.zonesInUse, List.mem_filter, List.mem_map, List.mem_range, Bank.maps, decide_eq_true_eq]
  constructor
  · rintro ⟨⟨i, hi, rfl⟩, h⟩
    exact ⟨⟨hi, h⟩, rfl⟩
  · rintro ⟨⟨h1, h2⟩, h3⟩
    exact ⟨⟨x.1, h1, by rw [← h3]⟩, by rw [h3]; exact h2⟩

/-- They stand in increasing index. -/
theorem zonesInUse_increase (b : Bank) : b.zonesInUse.Pairwise (fun x y => x.1 < y.1) := by
  unfold Bank.zonesInUse
  apply List.Pairwise.filter
  rw [List.pairwise_map]
  simpa using List.pairwise_lt_range

/-- Before an entry in use stand those of lower index. -/
theorem zonesInUse_split (b : Bank) (k : Nat) (h : b.maps k) :
    ∃ front back, b.zonesInUse = front ++ (k, b.zone k) :: back ∧ ∀ x, x ∈ front ↔ x ∈ b.zonesInUse ∧ x.1 < k := by
  obtain ⟨front, back, e⟩ := List.append_of_mem ((mem_zonesInUse b (k, b.zone k)).mpr ⟨h, rfl⟩)
  refine ⟨front, back, e, fun x => ?_⟩
  have rise := zonesInUse_increase b
  rw [e] at rise ⊢
  rw [List.pairwise_append, List.pairwise_cons] at rise
  obtain ⟨-, ⟨after, -⟩, apart⟩ := rise
  constructor
  · intro hx
    exact ⟨by simp [hx], apart x hx (k, b.zone k) (by simp)⟩
  · rintro ⟨hx, below⟩
    simp only [List.mem_append, List.mem_cons] at hx
    rcases hx with hx | rfl | hx
    · exact hx
    · simp at below
    · have := after x hx
      simp at this
      omega

/-! ## Check 7 -/

/-- Check 7 finds nothing when no two entries are alike. -/
theorem firstDuplicate_none (seen l : List (Nat × ZoneEntry)) : firstDuplicate seen l = none ↔
    (∀ x ∈ l, ∀ y ∈ seen, sameDigits y.2 x.2 = false) ∧ l.Pairwise (fun y x => sameDigits y.2 x.2 = false) := by
  induction l generalizing seen with
  | nil => simp [firstDuplicate]
  | cons a l ih =>
    simp only [firstDuplicate]
    split
    next h =>
      obtain ⟨y, hy, same⟩ := List.any_eq_true.mp h
      constructor
      · simp
      · intro k
        have := k.1 a (by simp) y hy
        simp [same] at this
    next h =>
      simp only [List.any_eq_true, not_exists, not_and, Bool.not_eq_true] at h
      rw [ih]
      simp only [List.mem_cons, List.pairwise_cons]
      constructor
      · rintro ⟨h1, h2⟩
        refine ⟨?_, fun x hx => h1 x hx a (.inl rfl), h2⟩
        rintro x (rfl | hx) y hy
        · exact h y hy
        · exact h1 x hx y (.inr hy)
      · rintro ⟨h1, h2, h3⟩
        refine ⟨?_, h3⟩
        rintro x hx y (rfl | hy)
        · exact h2 x hx
        · exact h1 x (.inr hx) y hy

/-- Check 7 finds an entry like an earlier one, when no two before it are alike. -/
theorem firstDuplicate_some (seen front back : List (Nat × ZoneEntry)) (x : Nat × ZoneEntry)
    (apart : firstDuplicate seen front = none) (like : ∃ y, (y ∈ seen ∨ y ∈ front) ∧ sameDigits y.2 x.2 = true) :
    firstDuplicate seen (front ++ x :: back) = some x.1 := by
  induction front generalizing seen with
  | nil =>
    obtain ⟨y, hy, same⟩ := like
    simp at hy
    simp only [List.nil_append, firstDuplicate]
    rw [if_pos (List.any_eq_true.mpr ⟨y, hy, same⟩)]
  | cons c front ih =>
    simp only [firstDuplicate] at apart
    split at apart
    · simp at apart
    · simp only [List.cons_append, firstDuplicate]
      rw [if_neg ‹_›]
      apply ih _ apart
      obtain ⟨y, hy, same⟩ := like
      exact ⟨y, by simp at hy ⊢; tauto, same⟩

/-! ## Rounding (R116) -/

/-- The rounded charge is the multiple of the resolution that is the charge or exceeds it by less than the resolution. -/
theorem roundUp_spec (resolution raw : Nat) (h : 1 ≤ resolution) :
    roundUp resolution raw % resolution = 0 ∧ raw ≤ roundUp resolution raw ∧ roundUp resolution raw < raw + resolution := by
  unfold roundUp ceilDiv
  have split := Nat.div_add_mod (raw + resolution - 1) resolution
  have small := Nat.mod_lt (raw + resolution - 1) (show resolution > 0 by omega)
  rw [Nat.mul_comm] at split
  refine ⟨Nat.mul_mod_left _ _, ?_, ?_⟩ <;> omega

end Sys2Proof.Machine
end

