-- ==== Sys2Proof/Laws/State.lean ====
section
/-! SUPPORT. What each update of the state leaves as it was: for every shared update one lemma, so that no proof unfolds it. -/

namespace Sys2Proof.Machine

/-- Raising an event changes the two event sets alone (R172). -/
@[simp] theorem raise_keeps (e : Event) (s : State) :
    (raise e s).powered = s.powered ∧ (raise e s).mode = s.mode ∧ (raise e s).loop = s.loop ∧ (raise e s).intake = s.intake
      ∧ (raise e s).tracker = s.tracker ∧ (raise e s).rates = s.rates ∧ (raise e s).engine = s.engine ∧ (raise e s).store =
      s.store ∧ (raise e s).funds = s.funds ∧ (raise e s).imprint = s.imprint ∧ (raise e s).verify = s.verify ∧ (raise e
      s).port.config = s.port.config ∧ (raise e s).port.latch = s.port.latch ∧ (raise e s).out = s.out ∧ (raise e
      s).freeCount = s.freeCount ∧ (raise e s).pending = s.pending := by
  refine ⟨?_, ?_, ?_, ?_, ?_, ?_, ?_, ?_, ?_, ?_, ?_, ?_, ?_, ?_, ?_, ?_⟩ <;> rfl

/-- Halting changes the head mode and the quiesce condition alone (R51). -/
@[simp] theorem halt_keeps (s : State) :
    (halt s).powered = s.powered ∧ (halt s).loop = s.loop ∧ (halt s).intake.jobs = s.intake.jobs ∧ (halt s).intake.closing =
      s.intake.closing ∧ (halt s).intake.passing = s.intake.passing ∧ (halt s).intake.feedHold = s.intake.feedHold ∧ (halt
      s).intake.duplicates = s.intake.duplicates ∧ (halt s).tracker = s.tracker ∧ (halt s).rates = s.rates ∧ (halt s).engine
      = s.engine ∧ (halt s).store = s.store ∧ (halt s).funds = s.funds ∧ (halt s).imprint = s.imprint ∧ (halt s).verify =
      s.verify ∧ (halt s).port = s.port ∧ (halt s).out = s.out ∧ (halt s).freeCount = s.freeCount ∧ (halt s).pending =
      s.pending := by
  refine ⟨?_, ?_, ?_, ?_, ?_, ?_, ?_, ?_, ?_, ?_, ?_, ?_, ?_, ?_, ?_, ?_, ?_, ?_⟩ <;> rfl

/-- Counting a bad frame changes the bad-frame count alone (R4). -/
@[simp] theorem countBad_keeps (s : State) :
    (countBad s).powered = s.powered ∧ (countBad s).mode = s.mode ∧ (countBad s).loop.relay = s.loop.relay ∧ (countBad
      s).loop.switching = s.loop.switching ∧ (countBad s).loop.attach = s.loop.attach ∧ (countBad s).loop.receiver =
      s.loop.receiver ∧ (countBad s).loop.idleRun = s.loop.idleRun ∧ (countBad s).loop.lost = s.loop.lost ∧ (countBad
      s).loop.forward = s.loop.forward ∧ (countBad s).loop.own = s.loop.own ∧ (countBad s).loop.transmitter =
      s.loop.transmitter ∧ (countBad s).intake = s.intake ∧ (countBad s).tracker = s.tracker ∧ (countBad s).rates = s.rates
      ∧ (countBad s).engine = s.engine ∧ (countBad s).store = s.store ∧ (countBad s).funds = s.funds ∧ (countBad s).imprint
      = s.imprint ∧ (countBad s).verify = s.verify ∧ (countBad s).port = s.port ∧ (countBad s).out = s.out ∧ (countBad
      s).freeCount = s.freeCount ∧ (countBad s).pending = s.pending := by
  refine ⟨?_, ?_, ?_, ?_, ?_, ?_, ?_, ?_, ?_, ?_, ?_, ?_, ?_, ?_, ?_, ?_, ?_, ?_, ?_, ?_, ?_, ?_, ?_⟩ <;> rfl

/-- A change of a record changes the piece table alone. -/
@[simp] theorem changeRecord_keeps (tag : Nat) (change : PieceRecord → PieceRecord) (s : State) :
    (changeRecord tag change s).powered = s.powered ∧ (changeRecord tag change s).mode = s.mode ∧ (changeRecord tag change
      s).loop = s.loop ∧ (changeRecord tag change s).intake = s.intake ∧ (changeRecord tag change s).tracker.position =
      s.tracker.position ∧ (changeRecord tag change s).tracker.lastFault = s.tracker.lastFault ∧ (changeRecord tag change
      s).tracker.nextTag = s.tracker.nextTag ∧ (changeRecord tag change s).rates = s.rates ∧ (changeRecord tag change
      s).engine = s.engine ∧ (changeRecord tag change s).store = s.store ∧ (changeRecord tag change s).funds = s.funds ∧
      (changeRecord tag change s).imprint = s.imprint ∧ (changeRecord tag change s).verify = s.verify ∧ (changeRecord tag
      change s).port = s.port ∧ (changeRecord tag change s).out = s.out ∧ (changeRecord tag change s).freeCount =
      s.freeCount ∧ (changeRecord tag change s).pending = s.pending := by
  refine ⟨?_, ?_, ?_, ?_, ?_, ?_, ?_, ?_, ?_, ?_, ?_, ?_, ?_, ?_, ?_, ?_, ?_⟩ <;> rfl

/-- A write that is admitted changes the write queue alone (R124). -/
@[simp] theorem enqueueWrite_keeps (w : StoreWrite) (s : State) :
    (enqueueWrite w s).powered = s.powered ∧ (enqueueWrite w s).mode = s.mode ∧ (enqueueWrite w s).loop = s.loop ∧
      (enqueueWrite w s).intake = s.intake ∧ (enqueueWrite w s).tracker = s.tracker ∧ (enqueueWrite w s).rates = s.rates ∧
      (enqueueWrite w s).engine = s.engine ∧ (enqueueWrite w s).store = s.store ∧ (enqueueWrite w s).funds.pledged =
      s.funds.pledged ∧ (enqueueWrite w s).funds.startup = s.funds.startup ∧ (enqueueWrite w s).funds.lowMark =
      s.funds.lowMark ∧ (enqueueWrite w s).funds.outMark = s.funds.outMark ∧ (enqueueWrite w s).funds.warnMark =
      s.funds.warnMark ∧ (enqueueWrite w s).funds.fullMark = s.funds.fullMark ∧ (enqueueWrite w s).imprint = s.imprint ∧
      (enqueueWrite w s).verify = s.verify ∧ (enqueueWrite w s).port = s.port ∧ (enqueueWrite w s).out = s.out ∧
      (enqueueWrite w s).freeCount = s.freeCount ∧ (enqueueWrite w s).pending = s.pending := by
  refine ⟨?_, ?_, ?_, ?_, ?_, ?_, ?_, ?_, ?_, ?_, ?_, ?_, ?_, ?_, ?_, ?_, ?_, ?_, ?_, ?_⟩ <;> rfl

/-- A returned pledge changes the pledged total alone (R122). -/
@[simp] theorem lowerPledge_keeps (postage : Nat) (s : State) :
    (lowerPledge postage s).powered = s.powered ∧ (lowerPledge postage s).mode = s.mode ∧ (lowerPledge postage s).loop =
      s.loop ∧ (lowerPledge postage s).intake = s.intake ∧ (lowerPledge postage s).tracker = s.tracker ∧ (lowerPledge
      postage s).rates = s.rates ∧ (lowerPledge postage s).engine = s.engine ∧ (lowerPledge postage s).store = s.store ∧
      (lowerPledge postage s).funds.writes = s.funds.writes ∧ (lowerPledge postage s).funds.startup = s.funds.startup ∧
      (lowerPledge postage s).funds.lowMark = s.funds.lowMark ∧ (lowerPledge postage s).funds.outMark = s.funds.outMark ∧
      (lowerPledge postage s).funds.warnMark = s.funds.warnMark ∧ (lowerPledge postage s).funds.fullMark = s.funds.fullMark
      ∧ (lowerPledge postage s).imprint = s.imprint ∧ (lowerPledge postage s).verify = s.verify ∧ (lowerPledge postage
      s).port = s.port ∧ (lowerPledge postage s).out = s.out ∧ (lowerPledge postage s).freeCount = s.freeCount ∧
      (lowerPledge postage s).pending = s.pending := by
  refine ⟨?_, ?_, ?_, ?_, ?_, ?_, ?_, ?_, ?_, ?_, ?_, ?_, ?_, ?_, ?_, ?_, ?_, ?_, ?_, ?_⟩ <;> rfl

/-- A completion changes the store and the write queue, and uses one free value (R124). -/
@[simp] theorem completeWrite_keeps (w : StoreWrite) (rest : List StoreWrite) (s : State) :
    (completeWrite w rest s).powered = s.powered ∧ (completeWrite w rest s).mode = s.mode ∧ (completeWrite w rest s).loop =
      s.loop ∧ (completeWrite w rest s).intake = s.intake ∧ (completeWrite w rest s).tracker = s.tracker ∧ (completeWrite w
      rest s).rates = s.rates ∧ (completeWrite w rest s).engine = s.engine ∧ (completeWrite w rest s).funds.pledged =
      s.funds.pledged ∧ (completeWrite w rest s).funds.startup = s.funds.startup ∧ (completeWrite w rest s).funds.lowMark =
      s.funds.lowMark ∧ (completeWrite w rest s).funds.outMark = s.funds.outMark ∧ (completeWrite w rest s).funds.warnMark =
      s.funds.warnMark ∧ (completeWrite w rest s).funds.fullMark = s.funds.fullMark ∧ (completeWrite w rest s).imprint =
      s.imprint ∧ (completeWrite w rest s).verify = s.verify ∧ (completeWrite w rest s).port = s.port ∧ (completeWrite w
      rest s).out = s.out ∧ (completeWrite w rest s).pending = s.pending := by
  refine ⟨?_, ?_, ?_, ?_, ?_, ?_, ?_, ?_, ?_, ?_, ?_, ?_, ?_, ?_, ?_, ?_, ?_, ?_⟩ <;> rfl

/-- A change of an entry changes the recent franked list alone (R158). -/
@[simp] theorem setFranked_keeps (serial : Nat) (state : VerifyState) (reason : Option SpoilReason) (s : State) :
    (setFranked serial state reason s).powered = s.powered ∧ (setFranked serial state reason s).mode = s.mode ∧ (setFranked
      serial state reason s).loop = s.loop ∧ (setFranked serial state reason s).intake = s.intake ∧ (setFranked serial state
      reason s).tracker = s.tracker ∧ (setFranked serial state reason s).rates = s.rates ∧ (setFranked serial state reason
      s).engine = s.engine ∧ (setFranked serial state reason s).store = s.store ∧ (setFranked serial state reason s).funds =
      s.funds ∧ (setFranked serial state reason s).imprint = s.imprint ∧ (setFranked serial state reason s).verify.unmatched
      = s.verify.unmatched ∧ (setFranked serial state reason s).port = s.port ∧ (setFranked serial state reason s).out =
      s.out ∧ (setFranked serial state reason s).freeCount = s.freeCount ∧ (setFranked serial state reason s).pending =
      s.pending := by
  refine ⟨?_, ?_, ?_, ?_, ?_, ?_, ?_, ?_, ?_, ?_, ?_, ?_, ?_, ?_, ?_⟩ <;> rfl

/-- An answer changes nothing but the answer (R167). -/
@[simp] theorem answer_keeps (v : Verdict) (further : Further) (d : AnswerData) (s : State) :
    (answer v further d s).powered = s.powered ∧ (answer v further d s).mode = s.mode ∧ (answer v further d s).loop = s.loop
      ∧ (answer v further d s).intake = s.intake ∧ (answer v further d s).tracker = s.tracker ∧ (answer v further d s).rates
      = s.rates ∧ (answer v further d s).engine = s.engine ∧ (answer v further d s).store = s.store ∧ (answer v further d
      s).funds = s.funds ∧ (answer v further d s).imprint = s.imprint ∧ (answer v further d s).verify = s.verify ∧ (answer v
      further d s).port = s.port ∧ (answer v further d s).out.loopOut = s.out.loopOut ∧ (answer v further d s).out.engineOut
      = s.out.engineOut ∧ (answer v further d s).freeCount = s.freeCount ∧ (answer v further d s).pending = s.pending := by
  refine ⟨?_, ?_, ?_, ?_, ?_, ?_, ?_, ?_, ?_, ?_, ?_, ?_, ?_, ?_, ?_, ?_⟩ <;> rfl

/-- The same for a setup command. -/
@[simp] theorem answerSetup_keeps (v : Verdict) (bad : Option Nat) (s : State) :
    (answerSetup v bad s).powered = s.powered ∧ (answerSetup v bad s).mode = s.mode ∧ (answerSetup v bad s).loop = s.loop ∧
      (answerSetup v bad s).intake = s.intake ∧ (answerSetup v bad s).tracker = s.tracker ∧ (answerSetup v bad s).rates =
      s.rates ∧ (answerSetup v bad s).engine = s.engine ∧ (answerSetup v bad s).store = s.store ∧ (answerSetup v bad
      s).funds = s.funds ∧ (answerSetup v bad s).imprint = s.imprint ∧ (answerSetup v bad s).verify = s.verify ∧
      (answerSetup v bad s).port = s.port ∧ (answerSetup v bad s).out.loopOut = s.out.loopOut ∧ (answerSetup v bad
      s).out.engineOut = s.out.engineOut ∧ (answerSetup v bad s).freeCount = s.freeCount ∧ (answerSetup v bad s).pending =
      s.pending := by
  refine ⟨?_, ?_, ?_, ?_, ?_, ?_, ?_, ?_, ?_, ?_, ?_, ?_, ?_, ?_, ?_, ?_⟩ <;> rfl

/-- The same for an operation command. -/
@[simp] theorem answerOperation_keeps (v : Verdict) (s : State) :
    (answerOperation v s).powered = s.powered ∧ (answerOperation v s).mode = s.mode ∧ (answerOperation v s).loop = s.loop ∧
      (answerOperation v s).intake = s.intake ∧ (answerOperation v s).tracker = s.tracker ∧ (answerOperation v s).rates =
      s.rates ∧ (answerOperation v s).engine = s.engine ∧ (answerOperation v s).store = s.store ∧ (answerOperation v
      s).funds = s.funds ∧ (answerOperation v s).imprint = s.imprint ∧ (answerOperation v s).verify = s.verify ∧
      (answerOperation v s).port = s.port ∧ (answerOperation v s).out.loopOut = s.out.loopOut ∧ (answerOperation v
      s).out.engineOut = s.out.engineOut ∧ (answerOperation v s).freeCount = s.freeCount ∧ (answerOperation v s).pending =
      s.pending := by
  refine ⟨?_, ?_, ?_, ?_, ?_, ?_, ?_, ?_, ?_, ?_, ?_, ?_, ?_, ?_, ?_, ?_⟩ <;> rfl

/-- The same for a read command. -/
@[simp] theorem answerRead_keeps (v : Verdict) (d : AnswerData) (s : State) :
    (answerRead v d s).powered = s.powered ∧ (answerRead v d s).mode = s.mode ∧ (answerRead v d s).loop = s.loop ∧
      (answerRead v d s).intake = s.intake ∧ (answerRead v d s).tracker = s.tracker ∧ (answerRead v d s).rates = s.rates ∧
      (answerRead v d s).engine = s.engine ∧ (answerRead v d s).store = s.store ∧ (answerRead v d s).funds = s.funds ∧
      (answerRead v d s).imprint = s.imprint ∧ (answerRead v d s).verify = s.verify ∧ (answerRead v d s).port = s.port ∧
      (answerRead v d s).out.loopOut = s.out.loopOut ∧ (answerRead v d s).out.engineOut = s.out.engineOut ∧ (answerRead v d
      s).freeCount = s.freeCount ∧ (answerRead v d s).pending = s.pending := by
  refine ⟨?_, ?_, ?_, ?_, ?_, ?_, ?_, ?_, ?_, ?_, ?_, ?_, ?_, ?_, ?_, ?_⟩ <;> rfl

/-- The same for a store command. -/
@[simp] theorem answerStore_keeps (v : Verdict) (s : State) :
    (answerStore v s).powered = s.powered ∧ (answerStore v s).mode = s.mode ∧ (answerStore v s).loop = s.loop ∧ (answerStore
      v s).intake = s.intake ∧ (answerStore v s).tracker = s.tracker ∧ (answerStore v s).rates = s.rates ∧ (answerStore v
      s).engine = s.engine ∧ (answerStore v s).store = s.store ∧ (answerStore v s).funds = s.funds ∧ (answerStore v
      s).imprint = s.imprint ∧ (answerStore v s).verify = s.verify ∧ (answerStore v s).port = s.port ∧ (answerStore v
      s).out.loopOut = s.out.loopOut ∧ (answerStore v s).out.engineOut = s.out.engineOut ∧ (answerStore v s).freeCount =
      s.freeCount ∧ (answerStore v s).pending = s.pending := by
  refine ⟨?_, ?_, ?_, ?_, ?_, ?_, ?_, ?_, ?_, ?_, ?_, ?_, ?_, ?_, ?_, ?_⟩ <;> rfl

/-- A frame that joins the forward queue changes that queue alone (R6). -/
@[simp] theorem enqueueForward_keeps (f : Frame) (held : Bool) (s : State) :
    (enqueueForward f held s).powered = s.powered ∧ (enqueueForward f held s).mode = s.mode ∧ (enqueueForward f held
      s).loop.relay = s.loop.relay ∧ (enqueueForward f held s).loop.switching = s.loop.switching ∧ (enqueueForward f held
      s).loop.attach = s.loop.attach ∧ (enqueueForward f held s).loop.receiver = s.loop.receiver ∧ (enqueueForward f held
      s).loop.idleRun = s.loop.idleRun ∧ (enqueueForward f held s).loop.lost = s.loop.lost ∧ (enqueueForward f held
      s).loop.own = s.loop.own ∧ (enqueueForward f held s).loop.transmitter = s.loop.transmitter ∧ (enqueueForward f held
      s).loop.badFrames = s.loop.badFrames ∧ (enqueueForward f held s).intake = s.intake ∧ (enqueueForward f held s).tracker
      = s.tracker ∧ (enqueueForward f held s).rates = s.rates ∧ (enqueueForward f held s).engine = s.engine ∧
      (enqueueForward f held s).store = s.store ∧ (enqueueForward f held s).funds = s.funds ∧ (enqueueForward f held
      s).imprint = s.imprint ∧ (enqueueForward f held s).verify = s.verify ∧ (enqueueForward f held s).port = s.port ∧
      (enqueueForward f held s).out = s.out ∧ (enqueueForward f held s).freeCount = s.freeCount ∧ (enqueueForward f held
      s).pending = s.pending := by
  refine ⟨?_, ?_, ?_, ?_, ?_, ?_, ?_, ?_, ?_, ?_, ?_, ?_, ?_, ?_, ?_, ?_, ?_, ?_, ?_, ?_, ?_, ?_, ?_⟩ <;> rfl

/-- The release of a held notice changes the forward queue alone (R7). -/
@[simp] theorem releaseHeld_keeps (took : Bool) (s : State) :
    (releaseHeld took s).powered = s.powered ∧ (releaseHeld took s).mode = s.mode ∧ (releaseHeld took s).loop.relay =
      s.loop.relay ∧ (releaseHeld took s).loop.switching = s.loop.switching ∧ (releaseHeld took s).loop.attach =
      s.loop.attach ∧ (releaseHeld took s).loop.receiver = s.loop.receiver ∧ (releaseHeld took s).loop.idleRun =
      s.loop.idleRun ∧ (releaseHeld took s).loop.lost = s.loop.lost ∧ (releaseHeld took s).loop.own = s.loop.own ∧
      (releaseHeld took s).loop.transmitter = s.loop.transmitter ∧ (releaseHeld took s).loop.badFrames = s.loop.badFrames ∧
      (releaseHeld took s).intake = s.intake ∧ (releaseHeld took s).tracker = s.tracker ∧ (releaseHeld took s).rates =
      s.rates ∧ (releaseHeld took s).engine = s.engine ∧ (releaseHeld took s).store = s.store ∧ (releaseHeld took s).funds =
      s.funds ∧ (releaseHeld took s).imprint = s.imprint ∧ (releaseHeld took s).verify = s.verify ∧ (releaseHeld took
      s).port = s.port ∧ (releaseHeld took s).out = s.out ∧ (releaseHeld took s).freeCount = s.freeCount ∧ (releaseHeld took
      s).pending = s.pending := by
  refine ⟨?_, ?_, ?_, ?_, ?_, ?_, ?_, ?_, ?_, ?_, ?_, ?_, ?_, ?_, ?_, ?_, ?_, ?_, ?_, ?_, ?_, ?_, ?_⟩ <;> rfl

/-- A symbol changes the IDLE run count and the loop-lost flag (R2, R14). -/
@[simp] theorem seeSymbol_keeps (sym : Symbol) (s : State) :
    (seeSymbol sym s).powered = s.powered ∧ (seeSymbol sym s).mode = s.mode ∧ (seeSymbol sym s).loop.relay = s.loop.relay ∧
      (seeSymbol sym s).loop.switching = s.loop.switching ∧ (seeSymbol sym s).loop.attach = s.loop.attach ∧ (seeSymbol sym
      s).loop.receiver = s.loop.receiver ∧ (seeSymbol sym s).loop.forward = s.loop.forward ∧ (seeSymbol sym s).loop.own =
      s.loop.own ∧ (seeSymbol sym s).loop.transmitter = s.loop.transmitter ∧ (seeSymbol sym s).loop.badFrames =
      s.loop.badFrames ∧ (seeSymbol sym s).intake = s.intake ∧ (seeSymbol sym s).tracker = s.tracker ∧ (seeSymbol sym
      s).rates = s.rates ∧ (seeSymbol sym s).engine = s.engine ∧ (seeSymbol sym s).store = s.store ∧ (seeSymbol sym s).funds
      = s.funds ∧ (seeSymbol sym s).imprint = s.imprint ∧ (seeSymbol sym s).verify = s.verify ∧ (seeSymbol sym s).port =
      s.port ∧ (seeSymbol sym s).out = s.out ∧ (seeSymbol sym s).freeCount = s.freeCount ∧ (seeSymbol sym s).pending =
      s.pending := by
  refine ⟨?_, ?_, ?_, ?_, ?_, ?_, ?_, ?_, ?_, ?_, ?_, ?_, ?_, ?_, ?_, ?_, ?_, ?_, ?_, ?_, ?_, ?_⟩ <;> rfl

/-- A new record changes the piece table (R58). -/
@[simp] theorem addRecord_keeps (r : PieceRecord) (s : State) :
    (addRecord r s).powered = s.powered ∧ (addRecord r s).mode = s.mode ∧ (addRecord r s).loop = s.loop ∧ (addRecord r
      s).intake = s.intake ∧ (addRecord r s).tracker.position = s.tracker.position ∧ (addRecord r s).tracker.lastFault =
      s.tracker.lastFault ∧ (addRecord r s).rates = s.rates ∧ (addRecord r s).engine = s.engine ∧ (addRecord r s).store =
      s.store ∧ (addRecord r s).funds = s.funds ∧ (addRecord r s).imprint = s.imprint ∧ (addRecord r s).verify = s.verify ∧
      (addRecord r s).port = s.port ∧ (addRecord r s).out = s.out ∧ (addRecord r s).freeCount = s.freeCount ∧ (addRecord r
      s).pending = s.pending := by
  refine ⟨?_, ?_, ?_, ?_, ?_, ?_, ?_, ?_, ?_, ?_, ?_, ?_, ?_, ?_, ?_, ?_⟩ <;> rfl

/-- The passing list alone loses an entry (R37). -/
@[simp] theorem dropPassing_keeps (p : PieceNo) (s : State) :
    (dropPassing p s).powered = s.powered ∧ (dropPassing p s).mode = s.mode ∧ (dropPassing p s).loop = s.loop ∧ (dropPassing
      p s).intake.jobs = s.intake.jobs ∧ (dropPassing p s).intake.closing = s.intake.closing ∧ (dropPassing p
      s).intake.feedHold = s.intake.feedHold ∧ (dropPassing p s).intake.quiesce = s.intake.quiesce ∧ (dropPassing p
      s).intake.duplicates = s.intake.duplicates ∧ (dropPassing p s).tracker = s.tracker ∧ (dropPassing p s).rates = s.rates
      ∧ (dropPassing p s).engine = s.engine ∧ (dropPassing p s).store = s.store ∧ (dropPassing p s).funds = s.funds ∧
      (dropPassing p s).imprint = s.imprint ∧ (dropPassing p s).verify = s.verify ∧ (dropPassing p s).port = s.port ∧
      (dropPassing p s).out = s.out ∧ (dropPassing p s).freeCount = s.freeCount ∧ (dropPassing p s).pending = s.pending := by
  refine ⟨?_, ?_, ?_, ?_, ?_, ?_, ?_, ?_, ?_, ?_, ?_, ?_, ?_, ?_, ?_, ?_, ?_, ?_, ?_⟩ <;> rfl

/-- The passing list alone gains an entry (R37). -/
@[simp] theorem enterPassing_keeps (n : Notice) (s : State) :
    (enterPassing n s).powered = s.powered ∧ (enterPassing n s).mode = s.mode ∧ (enterPassing n s).loop = s.loop ∧
      (enterPassing n s).intake.jobs = s.intake.jobs ∧ (enterPassing n s).intake.closing = s.intake.closing ∧ (enterPassing
      n s).intake.feedHold = s.intake.feedHold ∧ (enterPassing n s).intake.quiesce = s.intake.quiesce ∧ (enterPassing n
      s).intake.duplicates = s.intake.duplicates ∧ (enterPassing n s).tracker = s.tracker ∧ (enterPassing n s).rates =
      s.rates ∧ (enterPassing n s).engine = s.engine ∧ (enterPassing n s).store = s.store ∧ (enterPassing n s).funds =
      s.funds ∧ (enterPassing n s).imprint = s.imprint ∧ (enterPassing n s).verify = s.verify ∧ (enterPassing n s).port =
      s.port ∧ (enterPassing n s).out = s.out ∧ (enterPassing n s).freeCount = s.freeCount ∧ (enterPassing n s).pending =
      s.pending := by
  refine ⟨?_, ?_, ?_, ?_, ?_, ?_, ?_, ?_, ?_, ?_, ?_, ?_, ?_, ?_, ?_, ?_, ?_, ?_, ?_⟩ <;> rfl

/-- A duplicate changes its count alone (R33). -/
@[simp] theorem countDuplicate_keeps (s : State) :
    (countDuplicate s).powered = s.powered ∧ (countDuplicate s).mode = s.mode ∧ (countDuplicate s).loop = s.loop ∧
      (countDuplicate s).intake.jobs = s.intake.jobs ∧ (countDuplicate s).intake.closing = s.intake.closing ∧
      (countDuplicate s).intake.passing = s.intake.passing ∧ (countDuplicate s).intake.feedHold = s.intake.feedHold ∧
      (countDuplicate s).intake.quiesce = s.intake.quiesce ∧ (countDuplicate s).tracker = s.tracker ∧ (countDuplicate
      s).rates = s.rates ∧ (countDuplicate s).engine = s.engine ∧ (countDuplicate s).store = s.store ∧ (countDuplicate
      s).funds = s.funds ∧ (countDuplicate s).imprint = s.imprint ∧ (countDuplicate s).verify = s.verify ∧ (countDuplicate
      s).port = s.port ∧ (countDuplicate s).out = s.out ∧ (countDuplicate s).freeCount = s.freeCount ∧ (countDuplicate
      s).pending = s.pending := by
  refine ⟨?_, ?_, ?_, ?_, ?_, ?_, ?_, ?_, ?_, ?_, ?_, ?_, ?_, ?_, ?_, ?_, ?_, ?_, ?_⟩ <;> rfl

/-- A held condition changes nothing else (R46). -/
@[simp] theorem holdCondition_keeps (q : QuiesceCondition) (s : State) :
    (holdCondition q s).powered = s.powered ∧ (holdCondition q s).mode = s.mode ∧ (holdCondition q s).loop = s.loop ∧
      (holdCondition q s).intake.jobs = s.intake.jobs ∧ (holdCondition q s).intake.closing = s.intake.closing ∧
      (holdCondition q s).intake.passing = s.intake.passing ∧ (holdCondition q s).intake.feedHold = s.intake.feedHold ∧
      (holdCondition q s).intake.duplicates = s.intake.duplicates ∧ (holdCondition q s).tracker = s.tracker ∧ (holdCondition
      q s).rates = s.rates ∧ (holdCondition q s).engine = s.engine ∧ (holdCondition q s).store = s.store ∧ (holdCondition q
      s).funds = s.funds ∧ (holdCondition q s).imprint = s.imprint ∧ (holdCondition q s).verify = s.verify ∧ (holdCondition
      q s).port = s.port ∧ (holdCondition q s).out = s.out ∧ (holdCondition q s).freeCount = s.freeCount ∧ (holdCondition q
      s).pending = s.pending := by
  refine ⟨?_, ?_, ?_, ?_, ?_, ?_, ?_, ?_, ?_, ?_, ?_, ?_, ?_, ?_, ?_, ?_, ?_, ?_, ?_⟩ <;> rfl

/-- A RATE SWITCH changes the switch point and the not-ready mark (R89). -/
@[simp] theorem recordSwitch_keeps (point : SwitchPoint) (s : State) :
    (recordSwitch point s).powered = s.powered ∧ (recordSwitch point s).mode = s.mode ∧ (recordSwitch point s).loop = s.loop
      ∧ (recordSwitch point s).intake = s.intake ∧ (recordSwitch point s).tracker = s.tracker ∧ (recordSwitch point
      s).rates.slot0 = s.rates.slot0 ∧ (recordSwitch point s).rates.slot1 = s.rates.slot1 ∧ (recordSwitch point s).engine =
      s.engine ∧ (recordSwitch point s).store = s.store ∧ (recordSwitch point s).funds = s.funds ∧ (recordSwitch point
      s).imprint = s.imprint ∧ (recordSwitch point s).verify = s.verify ∧ (recordSwitch point s).port = s.port ∧
      (recordSwitch point s).out = s.out ∧ (recordSwitch point s).freeCount = s.freeCount ∧ (recordSwitch point s).pending =
      s.pending := by
  refine ⟨?_, ?_, ?_, ?_, ?_, ?_, ?_, ?_, ?_, ?_, ?_, ?_, ?_, ?_, ?_, ?_⟩ <;> rfl

/-- A strike changes the print path alone (R149). -/
@[simp] theorem strike_keeps (serial : Nat) (s : State) :
    (strike serial s).powered = s.powered ∧ (strike serial s).mode = s.mode ∧ (strike serial s).loop = s.loop ∧ (strike
      serial s).intake = s.intake ∧ (strike serial s).tracker = s.tracker ∧ (strike serial s).rates = s.rates ∧ (strike
      serial s).engine = s.engine ∧ (strike serial s).store = s.store ∧ (strike serial s).funds = s.funds ∧ (strike serial
      s).imprint.sendQueue = s.imprint.sendQueue ∧ (strike serial s).imprint.receiver = s.imprint.receiver ∧ (strike serial
      s).verify = s.verify ∧ (strike serial s).port = s.port ∧ (strike serial s).out = s.out ∧ (strike serial s).freeCount =
      s.freeCount ∧ (strike serial s).pending = s.pending := by
  refine ⟨?_, ?_, ?_, ?_, ?_, ?_, ?_, ?_, ?_, ?_, ?_, ?_, ?_, ?_, ?_, ?_⟩ <;> rfl

/-- A settled imprint leaves the print path alone (R142). -/
@[simp] theorem dropPath_keeps (serial : Nat) (s : State) :
    (dropPath serial s).powered = s.powered ∧ (dropPath serial s).mode = s.mode ∧ (dropPath serial s).loop = s.loop ∧
      (dropPath serial s).intake = s.intake ∧ (dropPath serial s).tracker = s.tracker ∧ (dropPath serial s).rates = s.rates
      ∧ (dropPath serial s).engine = s.engine ∧ (dropPath serial s).store = s.store ∧ (dropPath serial s).funds = s.funds ∧
      (dropPath serial s).imprint.sendQueue = s.imprint.sendQueue ∧ (dropPath serial s).imprint.receiver =
      s.imprint.receiver ∧ (dropPath serial s).verify = s.verify ∧ (dropPath serial s).port = s.port ∧ (dropPath serial
      s).out = s.out ∧ (dropPath serial s).freeCount = s.freeCount ∧ (dropPath serial s).pending = s.pending := by
  refine ⟨?_, ?_, ?_, ?_, ?_, ?_, ?_, ?_, ?_, ?_, ?_, ?_, ?_, ?_, ?_, ?_⟩ <;> rfl

/-- The end of a message changes the receiver alone (R148). -/
@[simp] theorem endMessage_keeps (s : State) :
    (endMessage s).powered = s.powered ∧ (endMessage s).mode = s.mode ∧ (endMessage s).loop = s.loop ∧ (endMessage s).intake
      = s.intake ∧ (endMessage s).tracker = s.tracker ∧ (endMessage s).rates = s.rates ∧ (endMessage s).engine = s.engine ∧
      (endMessage s).store = s.store ∧ (endMessage s).funds = s.funds ∧ (endMessage s).imprint.path = s.imprint.path ∧
      (endMessage s).imprint.sendQueue = s.imprint.sendQueue ∧ (endMessage s).verify = s.verify ∧ (endMessage s).port =
      s.port ∧ (endMessage s).out = s.out ∧ (endMessage s).freeCount = s.freeCount ∧ (endMessage s).pending = s.pending := by
  refine ⟨?_, ?_, ?_, ?_, ?_, ?_, ?_, ?_, ?_, ?_, ?_, ?_, ?_, ?_, ?_, ?_⟩ <;> rfl

/-- A forward pulse changes the position alone (R52). -/
@[simp] theorem pulseForward_keeps (s : State) :
    (pulseForward s).powered = s.powered ∧ (pulseForward s).mode = s.mode ∧ (pulseForward s).loop = s.loop ∧ (pulseForward
      s).intake = s.intake ∧ (pulseForward s).tracker.pieces = s.tracker.pieces ∧ (pulseForward s).tracker.lastFault =
      s.tracker.lastFault ∧ (pulseForward s).tracker.nextTag = s.tracker.nextTag ∧ (pulseForward s).rates = s.rates ∧
      (pulseForward s).engine = s.engine ∧ (pulseForward s).store = s.store ∧ (pulseForward s).funds = s.funds ∧
      (pulseForward s).imprint = s.imprint ∧ (pulseForward s).verify = s.verify ∧ (pulseForward s).port = s.port ∧
      (pulseForward s).out = s.out ∧ (pulseForward s).freeCount = s.freeCount ∧ (pulseForward s).pending = s.pending := by
  refine ⟨?_, ?_, ?_, ?_, ?_, ?_, ?_, ?_, ?_, ?_, ?_, ?_, ?_, ?_, ?_, ?_, ?_⟩ <;> rfl

/-- A removed record leaves the piece table and its slot loses a binding (R77). -/
@[simp] theorem removeRecord_keeps (r : PieceRecord) (s : State) :
    (removeRecord r s).powered = s.powered ∧ (removeRecord r s).mode = s.mode ∧ (removeRecord r s).loop = s.loop ∧
      (removeRecord r s).intake = s.intake ∧ (removeRecord r s).tracker.position = s.tracker.position ∧ (removeRecord r
      s).tracker.lastFault = s.tracker.lastFault ∧ (removeRecord r s).tracker.nextTag = s.tracker.nextTag ∧ (removeRecord r
      s).engine = s.engine ∧ (removeRecord r s).store = s.store ∧ (removeRecord r s).funds = s.funds ∧ (removeRecord r
      s).imprint = s.imprint ∧ (removeRecord r s).verify = s.verify ∧ (removeRecord r s).port = s.port ∧ (removeRecord r
      s).out = s.out ∧ (removeRecord r s).freeCount = s.freeCount ∧ (removeRecord r s).pending = s.pending := by
  refine ⟨?_, ?_, ?_, ?_, ?_, ?_, ?_, ?_, ?_, ?_, ?_, ?_, ?_, ?_, ?_, ?_⟩ <;> rfl

/-! ## What the updates write -/

/-- The pending set after a raise (R172). -/
@[simp] theorem raise_events (e : Event) (s : State) : (raise e s).port.events = addEvent e s.port.events :=
  rfl

/-- The last-reported set after a raise (R172). -/
@[simp] theorem raise_lastReported (e : Event) (s : State) :
    (raise e s).port.lastReported = dropEvent e s.port.lastReported :=
  rfl

/-- The mode after a halt (R169). -/
@[simp] theorem halt_mode (s : State) : (halt s).mode = .halted :=
  rfl

/-- The quiesce condition after a halt (R51). -/
@[simp] theorem halt_quiesce (s : State) : (halt s).intake.quiesce = .none :=
  rfl

/-- The queue after an admission (R124). -/
@[simp] theorem enqueueWrite_writes (w : StoreWrite) (s : State) :
    (enqueueWrite w s).funds.writes = s.funds.writes ++ [w] :=
  rfl

/-- The pledged total after a pledge is returned (R122). -/
@[simp] theorem lowerPledge_pledged (postage : Nat) (s : State) :
    (lowerPledge postage s).funds.pledged = s.funds.pledged - postage :=
  rfl

/-- The store after a completion (R124). -/
@[simp] theorem completeWrite_store (w : StoreWrite) (rest : List StoreWrite) (s : State) :
    (completeWrite w rest s).store = s.store.apply s.freeCount w :=
  rfl

/-- The queue after a completion (R124). -/
@[simp] theorem completeWrite_writes (w : StoreWrite) (rest : List StoreWrite) (s : State) :
    (completeWrite w rest s).funds.writes = rest :=
  rfl

/-- The table after a change of a record. -/
@[simp] theorem changeRecord_pieces (tag : Nat) (change : PieceRecord → PieceRecord) (s : State) :
    (changeRecord tag change s).tracker.pieces = s.tracker.pieces.map (fun r => if r.tag = tag then change r else r) :=
  rfl

/-- The table after a removal (R77). -/
@[simp] theorem removeRecord_pieces (r : PieceRecord) (s : State) :
    (removeRecord r s).tracker.pieces = s.tracker.pieces.filter (fun x => x.tag != r.tag) :=
  rfl

/-- The binding count after a removal (R94). -/
@[simp] theorem removeRecord_rates (r : PieceRecord) (s : State) :
    (removeRecord r s).rates = s.rates.setSlot r.binding.slot (s.rates.slot r.binding.slot).released :=
  rfl

/-- A slot of the Rate Store after one of them is replaced. -/
theorem slot_setSlot (b : RateStore) (n m : SlotNo) (v : BankSlot) :
    (b.setSlot n v).slot m = if m = n then v else b.slot m := by
  cases n <;> cases m <;> rfl

end Sys2Proof.Machine
end

