-- ==== Sys2Proof/Laws/Ops.lean ====
section
/-! SUPPORT. What each shared operation leaves as it was, and what it can do: the lemmas a proof cites in place of unfolding it. -/

namespace Sys2Proof.Machine

/-- The arbiter changes the transmitter alone (R10). -/
@[simp] theorem arbitrate_keeps (s : State) :
    (arbitrate s).powered = s.powered ∧ (arbitrate s).mode = s.mode ∧ (arbitrate s).loop.relay = s.loop.relay ∧ (arbitrate
      s).loop.switching = s.loop.switching ∧ (arbitrate s).loop.attach = s.loop.attach ∧ (arbitrate s).loop.receiver =
      s.loop.receiver ∧ (arbitrate s).loop.idleRun = s.loop.idleRun ∧ (arbitrate s).loop.lost = s.loop.lost ∧ (arbitrate
      s).loop.forward = s.loop.forward ∧ (arbitrate s).loop.own = s.loop.own ∧ (arbitrate s).loop.badFrames =
      s.loop.badFrames ∧ (arbitrate s).intake = s.intake ∧ (arbitrate s).tracker = s.tracker ∧ (arbitrate s).rates = s.rates
      ∧ (arbitrate s).engine = s.engine ∧ (arbitrate s).store = s.store ∧ (arbitrate s).funds = s.funds ∧ (arbitrate
      s).imprint = s.imprint ∧ (arbitrate s).verify = s.verify ∧ (arbitrate s).port = s.port ∧ (arbitrate s).out = s.out ∧
      (arbitrate s).freeCount = s.freeCount ∧ (arbitrate s).pending = s.pending := by
  unfold arbitrate; repeat' split
  all_goals simp

/-- A frame given to the Loop Port changes the own-frame queue and the transmitter, or raises FRAME_DROP (R9). -/
@[simp] theorem giveFrame_keeps (kind : FrameKind) (body : List Byte) (s : State) :
    (giveFrame kind body s).powered = s.powered ∧ (giveFrame kind body s).mode = s.mode ∧ (giveFrame kind body s).loop.relay
      = s.loop.relay ∧ (giveFrame kind body s).loop.switching = s.loop.switching ∧ (giveFrame kind body s).loop.attach =
      s.loop.attach ∧ (giveFrame kind body s).loop.receiver = s.loop.receiver ∧ (giveFrame kind body s).loop.idleRun =
      s.loop.idleRun ∧ (giveFrame kind body s).loop.lost = s.loop.lost ∧ (giveFrame kind body s).loop.forward =
      s.loop.forward ∧ (giveFrame kind body s).loop.badFrames = s.loop.badFrames ∧ (giveFrame kind body s).intake = s.intake
      ∧ (giveFrame kind body s).tracker = s.tracker ∧ (giveFrame kind body s).rates = s.rates ∧ (giveFrame kind body
      s).engine = s.engine ∧ (giveFrame kind body s).store = s.store ∧ (giveFrame kind body s).funds = s.funds ∧ (giveFrame
      kind body s).imprint = s.imprint ∧ (giveFrame kind body s).verify = s.verify ∧ (giveFrame kind body s).port.config =
      s.port.config ∧ (giveFrame kind body s).port.latch = s.port.latch ∧ (giveFrame kind body s).out = s.out ∧ (giveFrame
      kind body s).freeCount = s.freeCount ∧ (giveFrame kind body s).pending = s.pending := by
  unfold giveFrame; repeat' split
  all_goals simp

/-- An empty table makes the head QUIET and raises QUIET_REACHED, and no more (R49). -/
@[simp] theorem settleQuiet_keeps (s : State) :
    (settleQuiet s).powered = s.powered ∧ (settleQuiet s).loop = s.loop ∧ (settleQuiet s).intake = s.intake ∧ (settleQuiet
      s).tracker = s.tracker ∧ (settleQuiet s).rates = s.rates ∧ (settleQuiet s).engine = s.engine ∧ (settleQuiet s).store =
      s.store ∧ (settleQuiet s).funds = s.funds ∧ (settleQuiet s).imprint = s.imprint ∧ (settleQuiet s).verify = s.verify ∧
      (settleQuiet s).port.config = s.port.config ∧ (settleQuiet s).port.latch = s.port.latch ∧ (settleQuiet s).out = s.out
      ∧ (settleQuiet s).freeCount = s.freeCount ∧ (settleQuiet s).pending = s.pending := by
  unfold settleQuiet; split
  all_goals simp

/-- Entering QUIESCING changes the mode and the quiesce condition (R46, R49). -/
@[simp] theorem enterQuiescing_keeps (s : State) :
    (enterQuiescing s).powered = s.powered ∧ (enterQuiescing s).loop = s.loop ∧ (enterQuiescing s).intake.jobs =
      s.intake.jobs ∧ (enterQuiescing s).intake.closing = s.intake.closing ∧ (enterQuiescing s).intake.passing =
      s.intake.passing ∧ (enterQuiescing s).intake.feedHold = s.intake.feedHold ∧ (enterQuiescing s).intake.duplicates =
      s.intake.duplicates ∧ (enterQuiescing s).tracker = s.tracker ∧ (enterQuiescing s).rates = s.rates ∧ (enterQuiescing
      s).engine = s.engine ∧ (enterQuiescing s).store = s.store ∧ (enterQuiescing s).funds = s.funds ∧ (enterQuiescing
      s).imprint = s.imprint ∧ (enterQuiescing s).verify = s.verify ∧ (enterQuiescing s).port.config = s.port.config ∧
      (enterQuiescing s).port.latch = s.port.latch ∧ (enterQuiescing s).out = s.out ∧ (enterQuiescing s).freeCount =
      s.freeCount ∧ (enterQuiescing s).pending = s.pending := by
  simp [enterQuiescing]

/-- The same where FUNDS_LOW meets a held condition (R48). -/
@[simp] theorem meetFundsLow_keeps (s : State) :
    (meetFundsLow s).powered = s.powered ∧ (meetFundsLow s).loop = s.loop ∧ (meetFundsLow s).intake.jobs = s.intake.jobs ∧
      (meetFundsLow s).intake.closing = s.intake.closing ∧ (meetFundsLow s).intake.passing = s.intake.passing ∧
      (meetFundsLow s).intake.feedHold = s.intake.feedHold ∧ (meetFundsLow s).intake.duplicates = s.intake.duplicates ∧
      (meetFundsLow s).tracker = s.tracker ∧ (meetFundsLow s).rates = s.rates ∧ (meetFundsLow s).engine = s.engine ∧
      (meetFundsLow s).store = s.store ∧ (meetFundsLow s).funds = s.funds ∧ (meetFundsLow s).imprint = s.imprint ∧
      (meetFundsLow s).verify = s.verify ∧ (meetFundsLow s).port.config = s.port.config ∧ (meetFundsLow s).port.latch =
      s.port.latch ∧ (meetFundsLow s).out = s.out ∧ (meetFundsLow s).freeCount = s.freeCount ∧ (meetFundsLow s).pending =
      s.pending := by
  unfold meetFundsLow; split
  all_goals simp

/-- The warn level changes its mark, and may quiesce the head (R140, R48). -/
@[simp] theorem judgeLow_keeps (c : Configuration) (s : State) :
    (judgeLow c s).powered = s.powered ∧ (judgeLow c s).loop = s.loop ∧ (judgeLow c s).intake.jobs = s.intake.jobs ∧
      (judgeLow c s).intake.closing = s.intake.closing ∧ (judgeLow c s).intake.passing = s.intake.passing ∧ (judgeLow c
      s).intake.feedHold = s.intake.feedHold ∧ (judgeLow c s).intake.duplicates = s.intake.duplicates ∧ (judgeLow c
      s).tracker = s.tracker ∧ (judgeLow c s).rates = s.rates ∧ (judgeLow c s).engine = s.engine ∧ (judgeLow c s).store =
      s.store ∧ (judgeLow c s).funds.pledged = s.funds.pledged ∧ (judgeLow c s).funds.writes = s.funds.writes ∧ (judgeLow c
      s).funds.startup = s.funds.startup ∧ (judgeLow c s).funds.outMark = s.funds.outMark ∧ (judgeLow c s).funds.warnMark =
      s.funds.warnMark ∧ (judgeLow c s).funds.fullMark = s.funds.fullMark ∧ (judgeLow c s).imprint = s.imprint ∧ (judgeLow c
      s).verify = s.verify ∧ (judgeLow c s).port.config = s.port.config ∧ (judgeLow c s).port.latch = s.port.latch ∧
      (judgeLow c s).out = s.out ∧ (judgeLow c s).freeCount = s.freeCount ∧ (judgeLow c s).pending = s.pending := by
  unfold judgeLow; repeat' split
  all_goals simp

/-- The take floor changes its mark and the events (R140). -/
@[simp] theorem judgeOut_keeps (c : Configuration) (s : State) :
    (judgeOut c s).powered = s.powered ∧ (judgeOut c s).mode = s.mode ∧ (judgeOut c s).loop = s.loop ∧ (judgeOut c s).intake
      = s.intake ∧ (judgeOut c s).tracker = s.tracker ∧ (judgeOut c s).rates = s.rates ∧ (judgeOut c s).engine = s.engine ∧
      (judgeOut c s).store = s.store ∧ (judgeOut c s).funds.pledged = s.funds.pledged ∧ (judgeOut c s).funds.writes =
      s.funds.writes ∧ (judgeOut c s).funds.startup = s.funds.startup ∧ (judgeOut c s).funds.lowMark = s.funds.lowMark ∧
      (judgeOut c s).funds.warnMark = s.funds.warnMark ∧ (judgeOut c s).funds.fullMark = s.funds.fullMark ∧ (judgeOut c
      s).imprint = s.imprint ∧ (judgeOut c s).verify = s.verify ∧ (judgeOut c s).port.config = s.port.config ∧ (judgeOut c
      s).port.latch = s.port.latch ∧ (judgeOut c s).out = s.out ∧ (judgeOut c s).freeCount = s.freeCount ∧ (judgeOut c
      s).pending = s.pending := by
  unfold judgeOut; repeat' split
  all_goals simp

/-- The funds thresholds change their marks, the events, and the mode by R48 (R140). -/
@[simp] theorem judgeFunds_keeps (s : State) :
    (judgeFunds s).powered = s.powered ∧ (judgeFunds s).loop = s.loop ∧ (judgeFunds s).intake.jobs = s.intake.jobs ∧
      (judgeFunds s).intake.closing = s.intake.closing ∧ (judgeFunds s).intake.passing = s.intake.passing ∧ (judgeFunds
      s).intake.feedHold = s.intake.feedHold ∧ (judgeFunds s).intake.duplicates = s.intake.duplicates ∧ (judgeFunds
      s).tracker = s.tracker ∧ (judgeFunds s).rates = s.rates ∧ (judgeFunds s).engine = s.engine ∧ (judgeFunds s).store =
      s.store ∧ (judgeFunds s).funds.pledged = s.funds.pledged ∧ (judgeFunds s).funds.writes = s.funds.writes ∧ (judgeFunds
      s).funds.startup = s.funds.startup ∧ (judgeFunds s).funds.warnMark = s.funds.warnMark ∧ (judgeFunds s).funds.fullMark
      = s.funds.fullMark ∧ (judgeFunds s).imprint = s.imprint ∧ (judgeFunds s).verify = s.verify ∧ (judgeFunds
      s).port.config = s.port.config ∧ (judgeFunds s).port.latch = s.port.latch ∧ (judgeFunds s).out = s.out ∧ (judgeFunds
      s).freeCount = s.freeCount ∧ (judgeFunds s).pending = s.pending := by
  unfold judgeFunds; split
  all_goals simp

/-- The spoil level of 40 changes its mark and the events (R141). -/
@[simp] theorem judgeWarn_keeps (s : State) :
    (judgeWarn s).powered = s.powered ∧ (judgeWarn s).mode = s.mode ∧ (judgeWarn s).loop = s.loop ∧ (judgeWarn s).intake =
      s.intake ∧ (judgeWarn s).tracker = s.tracker ∧ (judgeWarn s).rates = s.rates ∧ (judgeWarn s).engine = s.engine ∧
      (judgeWarn s).store = s.store ∧ (judgeWarn s).funds.pledged = s.funds.pledged ∧ (judgeWarn s).funds.writes =
      s.funds.writes ∧ (judgeWarn s).funds.startup = s.funds.startup ∧ (judgeWarn s).funds.lowMark = s.funds.lowMark ∧
      (judgeWarn s).funds.outMark = s.funds.outMark ∧ (judgeWarn s).funds.fullMark = s.funds.fullMark ∧ (judgeWarn
      s).imprint = s.imprint ∧ (judgeWarn s).verify = s.verify ∧ (judgeWarn s).port.config = s.port.config ∧ (judgeWarn
      s).port.latch = s.port.latch ∧ (judgeWarn s).out = s.out ∧ (judgeWarn s).freeCount = s.freeCount ∧ (judgeWarn
      s).pending = s.pending := by
  unfold judgeWarn; repeat' split
  all_goals simp

/-- The spoil level of 48 changes its mark and the events (R141). -/
@[simp] theorem judgeFull_keeps (s : State) :
    (judgeFull s).powered = s.powered ∧ (judgeFull s).mode = s.mode ∧ (judgeFull s).loop = s.loop ∧ (judgeFull s).intake =
      s.intake ∧ (judgeFull s).tracker = s.tracker ∧ (judgeFull s).rates = s.rates ∧ (judgeFull s).engine = s.engine ∧
      (judgeFull s).store = s.store ∧ (judgeFull s).funds.pledged = s.funds.pledged ∧ (judgeFull s).funds.writes =
      s.funds.writes ∧ (judgeFull s).funds.startup = s.funds.startup ∧ (judgeFull s).funds.lowMark = s.funds.lowMark ∧
      (judgeFull s).funds.outMark = s.funds.outMark ∧ (judgeFull s).funds.warnMark = s.funds.warnMark ∧ (judgeFull
      s).imprint = s.imprint ∧ (judgeFull s).verify = s.verify ∧ (judgeFull s).port.config = s.port.config ∧ (judgeFull
      s).port.latch = s.port.latch ∧ (judgeFull s).out = s.out ∧ (judgeFull s).freeCount = s.freeCount ∧ (judgeFull
      s).pending = s.pending := by
  unfold judgeFull; repeat' split
  all_goals simp

/-- The spoil thresholds change their marks and the events (R141). -/
@[simp] theorem judgeSpoils_keeps (before : Nat) (s : State) :
    (judgeSpoils before s).powered = s.powered ∧ (judgeSpoils before s).mode = s.mode ∧ (judgeSpoils before s).loop = s.loop
      ∧ (judgeSpoils before s).intake = s.intake ∧ (judgeSpoils before s).tracker = s.tracker ∧ (judgeSpoils before s).rates
      = s.rates ∧ (judgeSpoils before s).engine = s.engine ∧ (judgeSpoils before s).store = s.store ∧ (judgeSpoils before
      s).funds.pledged = s.funds.pledged ∧ (judgeSpoils before s).funds.writes = s.funds.writes ∧ (judgeSpoils before
      s).funds.startup = s.funds.startup ∧ (judgeSpoils before s).funds.lowMark = s.funds.lowMark ∧ (judgeSpoils before
      s).funds.outMark = s.funds.outMark ∧ (judgeSpoils before s).imprint = s.imprint ∧ (judgeSpoils before s).verify =
      s.verify ∧ (judgeSpoils before s).port.config = s.port.config ∧ (judgeSpoils before s).port.latch = s.port.latch ∧
      (judgeSpoils before s).out = s.out ∧ (judgeSpoils before s).freeCount = s.freeCount ∧ (judgeSpoils before s).pending =
      s.pending := by
  unfold judgeSpoils; split
  all_goals simp

/-- The feed-hold rule changes the flag, and gives a frame (R42). -/
@[simp] theorem feedHoldRule_keeps (s : State) :
    (feedHoldRule s).powered = s.powered ∧ (feedHoldRule s).mode = s.mode ∧ (feedHoldRule s).loop.relay = s.loop.relay ∧
      (feedHoldRule s).loop.switching = s.loop.switching ∧ (feedHoldRule s).loop.attach = s.loop.attach ∧ (feedHoldRule
      s).loop.receiver = s.loop.receiver ∧ (feedHoldRule s).loop.idleRun = s.loop.idleRun ∧ (feedHoldRule s).loop.lost =
      s.loop.lost ∧ (feedHoldRule s).loop.forward = s.loop.forward ∧ (feedHoldRule s).loop.badFrames = s.loop.badFrames ∧
      (feedHoldRule s).intake.jobs = s.intake.jobs ∧ (feedHoldRule s).intake.closing = s.intake.closing ∧ (feedHoldRule
      s).intake.passing = s.intake.passing ∧ (feedHoldRule s).intake.quiesce = s.intake.quiesce ∧ (feedHoldRule
      s).intake.duplicates = s.intake.duplicates ∧ (feedHoldRule s).tracker = s.tracker ∧ (feedHoldRule s).rates = s.rates ∧
      (feedHoldRule s).engine = s.engine ∧ (feedHoldRule s).store = s.store ∧ (feedHoldRule s).funds = s.funds ∧
      (feedHoldRule s).imprint = s.imprint ∧ (feedHoldRule s).verify = s.verify ∧ (feedHoldRule s).port.config =
      s.port.config ∧ (feedHoldRule s).port.latch = s.port.latch ∧ (feedHoldRule s).out = s.out ∧ (feedHoldRule s).freeCount
      = s.freeCount ∧ (feedHoldRule s).pending = s.pending := by
  unfold feedHoldRule; split
  all_goals simp

/-- A take changes the piece table, the passing list, and what the feed-hold rule changes (R35, R39). -/
@[simp] theorem take_keeps (r : PieceRecord) (s : State) :
    (take r s).powered = s.powered ∧ (take r s).mode = s.mode ∧ (take r s).loop.relay = s.loop.relay ∧ (take r
      s).loop.switching = s.loop.switching ∧ (take r s).loop.attach = s.loop.attach ∧ (take r s).loop.receiver =
      s.loop.receiver ∧ (take r s).loop.idleRun = s.loop.idleRun ∧ (take r s).loop.lost = s.loop.lost ∧ (take r
      s).loop.forward = s.loop.forward ∧ (take r s).loop.badFrames = s.loop.badFrames ∧ (take r s).intake.jobs =
      s.intake.jobs ∧ (take r s).intake.closing = s.intake.closing ∧ (take r s).intake.quiesce = s.intake.quiesce ∧ (take r
      s).intake.duplicates = s.intake.duplicates ∧ (take r s).tracker.position = s.tracker.position ∧ (take r
      s).tracker.lastFault = s.tracker.lastFault ∧ (take r s).rates = s.rates ∧ (take r s).engine = s.engine ∧ (take r
      s).store = s.store ∧ (take r s).funds = s.funds ∧ (take r s).imprint = s.imprint ∧ (take r s).verify = s.verify ∧
      (take r s).port.config = s.port.config ∧ (take r s).port.latch = s.port.latch ∧ (take r s).out = s.out ∧ (take r
      s).freeCount = s.freeCount ∧ (take r s).pending = s.pending := by
  simp [take]

/-- The frames of a retirement change the own-frame queue and the feed-hold flag (R43, R77). -/
@[simp] theorem giveAtRetirement_keeps (kind : FrameKind) (body : List Byte) (s : State) :
    (giveAtRetirement kind body s).powered = s.powered ∧ (giveAtRetirement kind body s).mode = s.mode ∧ (giveAtRetirement
      kind body s).loop.relay = s.loop.relay ∧ (giveAtRetirement kind body s).loop.switching = s.loop.switching ∧
      (giveAtRetirement kind body s).loop.attach = s.loop.attach ∧ (giveAtRetirement kind body s).loop.receiver =
      s.loop.receiver ∧ (giveAtRetirement kind body s).loop.idleRun = s.loop.idleRun ∧ (giveAtRetirement kind body
      s).loop.lost = s.loop.lost ∧ (giveAtRetirement kind body s).loop.forward = s.loop.forward ∧ (giveAtRetirement kind
      body s).loop.badFrames = s.loop.badFrames ∧ (giveAtRetirement kind body s).intake.jobs = s.intake.jobs ∧
      (giveAtRetirement kind body s).intake.closing = s.intake.closing ∧ (giveAtRetirement kind body s).intake.passing =
      s.intake.passing ∧ (giveAtRetirement kind body s).intake.quiesce = s.intake.quiesce ∧ (giveAtRetirement kind body
      s).intake.duplicates = s.intake.duplicates ∧ (giveAtRetirement kind body s).tracker = s.tracker ∧ (giveAtRetirement
      kind body s).rates = s.rates ∧ (giveAtRetirement kind body s).engine = s.engine ∧ (giveAtRetirement kind body s).store
      = s.store ∧ (giveAtRetirement kind body s).funds = s.funds ∧ (giveAtRetirement kind body s).imprint = s.imprint ∧
      (giveAtRetirement kind body s).verify = s.verify ∧ (giveAtRetirement kind body s).port.config = s.port.config ∧
      (giveAtRetirement kind body s).port.latch = s.port.latch ∧ (giveAtRetirement kind body s).out = s.out ∧
      (giveAtRetirement kind body s).pending = s.pending := by
  unfold giveAtRetirement; repeat' split
  all_goals simp

/-- What a retirement does not touch (R77). -/
@[simp] theorem retire_keeps (r : PieceRecord) (kind : FrameKind) (body : List Byte) (s : State) :
    (retire r kind body s).powered = s.powered ∧ (retire r kind body s).loop.relay = s.loop.relay ∧ (retire r kind body
      s).loop.switching = s.loop.switching ∧ (retire r kind body s).loop.attach = s.loop.attach ∧ (retire r kind body
      s).loop.receiver = s.loop.receiver ∧ (retire r kind body s).loop.idleRun = s.loop.idleRun ∧ (retire r kind body
      s).loop.lost = s.loop.lost ∧ (retire r kind body s).loop.forward = s.loop.forward ∧ (retire r kind body
      s).loop.badFrames = s.loop.badFrames ∧ (retire r kind body s).intake.jobs = s.intake.jobs ∧ (retire r kind body
      s).intake.closing = s.intake.closing ∧ (retire r kind body s).intake.passing = s.intake.passing ∧ (retire r kind body
      s).intake.quiesce = s.intake.quiesce ∧ (retire r kind body s).intake.duplicates = s.intake.duplicates ∧ (retire r kind
      body s).tracker.position = s.tracker.position ∧ (retire r kind body s).tracker.lastFault = s.tracker.lastFault ∧
      (retire r kind body s).tracker.nextTag = s.tracker.nextTag ∧ (retire r kind body s).engine = s.engine ∧ (retire r kind
      body s).store = s.store ∧ (retire r kind body s).funds = s.funds ∧ (retire r kind body s).imprint = s.imprint ∧
      (retire r kind body s).verify = s.verify ∧ (retire r kind body s).port.config = s.port.config ∧ (retire r kind body
      s).port.latch = s.port.latch ∧ (retire r kind body s).out = s.out ∧ (retire r kind body s).pending = s.pending := by
  simp [retire]

/-- The same with a FRANK REPORT. -/
@[simp] theorem retireReported_keeps (r : PieceRecord) (cause : FrankCause) (value serial : Nat) (s : State) :
    (retireReported r cause value serial s).powered = s.powered ∧ (retireReported r cause value serial s).loop.relay =
      s.loop.relay ∧ (retireReported r cause value serial s).loop.switching = s.loop.switching ∧ (retireReported r cause
      value serial s).loop.attach = s.loop.attach ∧ (retireReported r cause value serial s).loop.receiver = s.loop.receiver
      ∧ (retireReported r cause value serial s).loop.idleRun = s.loop.idleRun ∧ (retireReported r cause value serial
      s).loop.lost = s.loop.lost ∧ (retireReported r cause value serial s).loop.forward = s.loop.forward ∧ (retireReported r
      cause value serial s).loop.badFrames = s.loop.badFrames ∧ (retireReported r cause value serial s).intake.jobs =
      s.intake.jobs ∧ (retireReported r cause value serial s).intake.closing = s.intake.closing ∧ (retireReported r cause
      value serial s).intake.passing = s.intake.passing ∧ (retireReported r cause value serial s).intake.quiesce =
      s.intake.quiesce ∧ (retireReported r cause value serial s).intake.duplicates = s.intake.duplicates ∧ (retireReported r
      cause value serial s).tracker.position = s.tracker.position ∧ (retireReported r cause value serial
      s).tracker.lastFault = s.tracker.lastFault ∧ (retireReported r cause value serial s).tracker.nextTag =
      s.tracker.nextTag ∧ (retireReported r cause value serial s).engine = s.engine ∧ (retireReported r cause value serial
      s).store = s.store ∧ (retireReported r cause value serial s).funds = s.funds ∧ (retireReported r cause value serial
      s).imprint = s.imprint ∧ (retireReported r cause value serial s).verify = s.verify ∧ (retireReported r cause value
      serial s).port.config = s.port.config ∧ (retireReported r cause value serial s).port.latch = s.port.latch ∧
      (retireReported r cause value serial s).out = s.out ∧ (retireReported r cause value serial s).pending = s.pending := by
  simp [retireReported]

/-- The same for a missed piece. -/
@[simp] theorem missPiece_keeps (r : PieceRecord) (cause : FrankCause) (serial : Nat) (s : State) :
    (missPiece r cause serial s).powered = s.powered ∧ (missPiece r cause serial s).loop.relay = s.loop.relay ∧ (missPiece r
      cause serial s).loop.switching = s.loop.switching ∧ (missPiece r cause serial s).loop.attach = s.loop.attach ∧
      (missPiece r cause serial s).loop.receiver = s.loop.receiver ∧ (missPiece r cause serial s).loop.idleRun =
      s.loop.idleRun ∧ (missPiece r cause serial s).loop.lost = s.loop.lost ∧ (missPiece r cause serial s).loop.forward =
      s.loop.forward ∧ (missPiece r cause serial s).loop.badFrames = s.loop.badFrames ∧ (missPiece r cause serial
      s).intake.jobs = s.intake.jobs ∧ (missPiece r cause serial s).intake.closing = s.intake.closing ∧ (missPiece r cause
      serial s).intake.passing = s.intake.passing ∧ (missPiece r cause serial s).intake.quiesce = s.intake.quiesce ∧
      (missPiece r cause serial s).intake.duplicates = s.intake.duplicates ∧ (missPiece r cause serial s).tracker.position =
      s.tracker.position ∧ (missPiece r cause serial s).tracker.lastFault = s.tracker.lastFault ∧ (missPiece r cause serial
      s).tracker.nextTag = s.tracker.nextTag ∧ (missPiece r cause serial s).engine = s.engine ∧ (missPiece r cause serial
      s).store = s.store ∧ (missPiece r cause serial s).funds = s.funds ∧ (missPiece r cause serial s).imprint = s.imprint ∧
      (missPiece r cause serial s).verify = s.verify ∧ (missPiece r cause serial s).port.config = s.port.config ∧ (missPiece
      r cause serial s).port.latch = s.port.latch ∧ (missPiece r cause serial s).out = s.out ∧ (missPiece r cause serial
      s).pending = s.pending := by
  simp [missPiece]

/-- A slot write that is asked for changes the queue and the record, or retires it (R74, R76). -/
@[simp] theorem requestSlotWrite_keeps (r : PieceRecord) (w : StoreWrite) (s : State) :
    (requestSlotWrite r w s).powered = s.powered ∧ (requestSlotWrite r w s).loop.relay = s.loop.relay ∧ (requestSlotWrite r
      w s).loop.switching = s.loop.switching ∧ (requestSlotWrite r w s).loop.attach = s.loop.attach ∧ (requestSlotWrite r w
      s).loop.receiver = s.loop.receiver ∧ (requestSlotWrite r w s).loop.idleRun = s.loop.idleRun ∧ (requestSlotWrite r w
      s).loop.lost = s.loop.lost ∧ (requestSlotWrite r w s).loop.forward = s.loop.forward ∧ (requestSlotWrite r w
      s).loop.badFrames = s.loop.badFrames ∧ (requestSlotWrite r w s).intake.jobs = s.intake.jobs ∧ (requestSlotWrite r w
      s).intake.closing = s.intake.closing ∧ (requestSlotWrite r w s).intake.passing = s.intake.passing ∧ (requestSlotWrite
      r w s).intake.quiesce = s.intake.quiesce ∧ (requestSlotWrite r w s).intake.duplicates = s.intake.duplicates ∧
      (requestSlotWrite r w s).tracker.position = s.tracker.position ∧ (requestSlotWrite r w s).tracker.lastFault =
      s.tracker.lastFault ∧ (requestSlotWrite r w s).tracker.nextTag = s.tracker.nextTag ∧ (requestSlotWrite r w s).engine =
      s.engine ∧ (requestSlotWrite r w s).store = s.store ∧ (requestSlotWrite r w s).funds.pledged = s.funds.pledged ∧
      (requestSlotWrite r w s).funds.startup = s.funds.startup ∧ (requestSlotWrite r w s).funds.lowMark = s.funds.lowMark ∧
      (requestSlotWrite r w s).funds.outMark = s.funds.outMark ∧ (requestSlotWrite r w s).funds.warnMark = s.funds.warnMark
      ∧ (requestSlotWrite r w s).funds.fullMark = s.funds.fullMark ∧ (requestSlotWrite r w s).imprint = s.imprint ∧
      (requestSlotWrite r w s).verify = s.verify ∧ (requestSlotWrite r w s).port.config = s.port.config ∧ (requestSlotWrite
      r w s).port.latch = s.port.latch ∧ (requestSlotWrite r w s).out = s.out ∧ (requestSlotWrite r w s).pending = s.pending := by
  unfold requestSlotWrite; split
  all_goals simp

/-- A verdict spoil changes the queue and the recent franked list (R162). -/
@[simp] theorem requestVerdict_keeps (e : FrankedEntry) (reason : SpoilReason) (s : State) :
    (requestVerdict e reason s).powered = s.powered ∧ (requestVerdict e reason s).mode = s.mode ∧ (requestVerdict e reason
      s).loop = s.loop ∧ (requestVerdict e reason s).intake = s.intake ∧ (requestVerdict e reason s).tracker = s.tracker ∧
      (requestVerdict e reason s).rates = s.rates ∧ (requestVerdict e reason s).engine = s.engine ∧ (requestVerdict e reason
      s).store = s.store ∧ (requestVerdict e reason s).funds.pledged = s.funds.pledged ∧ (requestVerdict e reason
      s).funds.startup = s.funds.startup ∧ (requestVerdict e reason s).funds.lowMark = s.funds.lowMark ∧ (requestVerdict e
      reason s).funds.outMark = s.funds.outMark ∧ (requestVerdict e reason s).funds.warnMark = s.funds.warnMark ∧
      (requestVerdict e reason s).funds.fullMark = s.funds.fullMark ∧ (requestVerdict e reason s).imprint = s.imprint ∧
      (requestVerdict e reason s).verify.unmatched = s.verify.unmatched ∧ (requestVerdict e reason s).port = s.port ∧
      (requestVerdict e reason s).out = s.out ∧ (requestVerdict e reason s).freeCount = s.freeCount ∧ (requestVerdict e
      reason s).pending = s.pending := by
  unfold requestVerdict; split
  all_goals simp

/-- A waiting piece number joins the unmatched list (R162). -/
@[simp] theorem holdUnmatched_keeps (p : PieceNo) (s : State) :
    (holdUnmatched p s).powered = s.powered ∧ (holdUnmatched p s).mode = s.mode ∧ (holdUnmatched p s).loop = s.loop ∧
      (holdUnmatched p s).intake = s.intake ∧ (holdUnmatched p s).tracker = s.tracker ∧ (holdUnmatched p s).rates = s.rates
      ∧ (holdUnmatched p s).engine = s.engine ∧ (holdUnmatched p s).store = s.store ∧ (holdUnmatched p s).funds = s.funds ∧
      (holdUnmatched p s).imprint = s.imprint ∧ (holdUnmatched p s).verify.recent = s.verify.recent ∧ (holdUnmatched p
      s).port = s.port ∧ (holdUnmatched p s).out = s.out ∧ (holdUnmatched p s).freeCount = s.freeCount ∧ (holdUnmatched p
      s).pending = s.pending := by
  unfold holdUnmatched; split
  all_goals simp

/-- An unmatched spoil changes the queue or the unmatched list (R162). -/
@[simp] theorem requestUnmatched_keeps (p : PieceNo) (s : State) :
    (requestUnmatched p s).powered = s.powered ∧ (requestUnmatched p s).mode = s.mode ∧ (requestUnmatched p s).loop = s.loop
      ∧ (requestUnmatched p s).intake = s.intake ∧ (requestUnmatched p s).tracker = s.tracker ∧ (requestUnmatched p s).rates
      = s.rates ∧ (requestUnmatched p s).engine = s.engine ∧ (requestUnmatched p s).store = s.store ∧ (requestUnmatched p
      s).funds.pledged = s.funds.pledged ∧ (requestUnmatched p s).funds.startup = s.funds.startup ∧ (requestUnmatched p
      s).funds.lowMark = s.funds.lowMark ∧ (requestUnmatched p s).funds.outMark = s.funds.outMark ∧ (requestUnmatched p
      s).funds.warnMark = s.funds.warnMark ∧ (requestUnmatched p s).funds.fullMark = s.funds.fullMark ∧ (requestUnmatched p
      s).imprint = s.imprint ∧ (requestUnmatched p s).verify.recent = s.verify.recent ∧ (requestUnmatched p s).port = s.port
      ∧ (requestUnmatched p s).out = s.out ∧ (requestUnmatched p s).freeCount = s.freeCount ∧ (requestUnmatched p s).pending
      = s.pending := by
  unfold requestUnmatched; split
  all_goals simp

/-- A message to the engine changes the send queue alone (R147). -/
@[simp] theorem sendEngine_keeps (m : EngineMessage) (s : State) :
    (sendEngine m s).powered = s.powered ∧ (sendEngine m s).mode = s.mode ∧ (sendEngine m s).loop = s.loop ∧ (sendEngine m
      s).intake = s.intake ∧ (sendEngine m s).tracker = s.tracker ∧ (sendEngine m s).rates = s.rates ∧ (sendEngine m
      s).engine = s.engine ∧ (sendEngine m s).store = s.store ∧ (sendEngine m s).funds = s.funds ∧ (sendEngine m
      s).imprint.path = s.imprint.path ∧ (sendEngine m s).imprint.receiver = s.imprint.receiver ∧ (sendEngine m s).verify =
      s.verify ∧ (sendEngine m s).port = s.port ∧ (sendEngine m s).out = s.out ∧ (sendEngine m s).freeCount = s.freeCount ∧
      (sendEngine m s).pending = s.pending := by
  unfold sendEngine; split
  all_goals simp

/-- One waiting spoil asked for again changes the queue and the Verify Unit alone (R162). -/
theorem retryOne_keeps (s t : State) (h : retryOne s = some t) :
    t.powered = s.powered ∧ t.mode = s.mode ∧ t.loop = s.loop ∧ t.intake = s.intake ∧ t.tracker = s.tracker ∧ t.rates =
      s.rates ∧ t.engine = s.engine ∧ t.store = s.store ∧ t.funds.pledged = s.funds.pledged ∧ t.funds.startup =
      s.funds.startup ∧ t.funds.lowMark = s.funds.lowMark ∧ t.funds.outMark = s.funds.outMark ∧ t.funds.warnMark =
      s.funds.warnMark ∧ t.funds.fullMark = s.funds.fullMark ∧ t.imprint = s.imprint ∧ t.port = s.port ∧ t.out = s.out ∧
      t.freeCount = s.freeCount ∧ t.pending = s.pending := by
  unfold retryOne at h
  split at h
  · split at h
    · obtain rfl := Option.some.inj h
      simp
    · split at h
      · obtain rfl := Option.some.inj h
        simp
      · exact absurd h (by simp)
  · exact absurd h (by simp)

/-- The waiting spoils asked for again change the queue and the Verify Unit alone (R162). -/
@[simp] theorem retryWaiting_keeps (n : Nat) (s : State) :
    (retryWaiting n s).powered = s.powered ∧ (retryWaiting n s).mode = s.mode ∧ (retryWaiting n s).loop = s.loop ∧
      (retryWaiting n s).intake = s.intake ∧ (retryWaiting n s).tracker = s.tracker ∧ (retryWaiting n s).rates = s.rates ∧
      (retryWaiting n s).engine = s.engine ∧ (retryWaiting n s).store = s.store ∧ (retryWaiting n s).funds.pledged =
      s.funds.pledged ∧ (retryWaiting n s).funds.startup = s.funds.startup ∧ (retryWaiting n s).funds.lowMark =
      s.funds.lowMark ∧ (retryWaiting n s).funds.outMark = s.funds.outMark ∧ (retryWaiting n s).funds.warnMark =
      s.funds.warnMark ∧ (retryWaiting n s).funds.fullMark = s.funds.fullMark ∧ (retryWaiting n s).imprint = s.imprint ∧
      (retryWaiting n s).port = s.port ∧ (retryWaiting n s).out = s.out ∧ (retryWaiting n s).freeCount = s.freeCount ∧
      (retryWaiting n s).pending = s.pending := by
  induction n generalizing s with
  | zero => simp [retryWaiting]
  | succ n ih =>
    unfold retryWaiting
    split
    next t h =>
      have k := retryOne_keeps s t h
      have j := ih t
      simp_all
    next => simp

/-- The notice of an open place changes the queue and the Verify Unit alone (R126, R162). -/
@[simp] theorem placeNotice_keeps (s : State) :
    (placeNotice s).powered = s.powered ∧ (placeNotice s).mode = s.mode ∧ (placeNotice s).loop = s.loop ∧ (placeNotice
      s).intake = s.intake ∧ (placeNotice s).tracker = s.tracker ∧ (placeNotice s).rates = s.rates ∧ (placeNotice s).engine
      = s.engine ∧ (placeNotice s).store = s.store ∧ (placeNotice s).funds.pledged = s.funds.pledged ∧ (placeNotice
      s).funds.startup = s.funds.startup ∧ (placeNotice s).funds.lowMark = s.funds.lowMark ∧ (placeNotice s).funds.outMark =
      s.funds.outMark ∧ (placeNotice s).funds.warnMark = s.funds.warnMark ∧ (placeNotice s).funds.fullMark =
      s.funds.fullMark ∧ (placeNotice s).imprint = s.imprint ∧ (placeNotice s).port = s.port ∧ (placeNotice s).out = s.out ∧
      (placeNotice s).freeCount = s.freeCount ∧ (placeNotice s).pending = s.pending := by
  unfold placeNotice; split
  all_goals simp

/-! ## What the operations do -/

/-- A command on a controller with power answers a next state (log 7). -/
theorem whenPowered_on (s : State) (effect : State → State) (h : s.powered = true) :
    whenPowered s effect = .next (effect s) := by
  simp [whenPowered, h]

/-- A command on a controller without power changes nothing (log 7). -/
theorem whenPowered_off (s : State) (effect : State → State) (h : s.powered = false) : whenPowered s effect = .next s := by
  simp [whenPowered, h]

/-- An event that is raised is pending (R172). -/
theorem mem_addEvent (e : Event) (set : List Event) : e ∈ addEvent e set := by
  simp only [addEvent, List.mem_filter, beq_self_eq_true, Bool.true_or, and_true]
  cases e <;> decide

/-- A raise adds one event to the pending set and takes none out of it (R172). -/
theorem mem_addEvent_iff (e x : Event) (set : List Event) : x ∈ addEvent e set ↔ x = e ∨ x ∈ set := by
  have all : x ∈ allEvents := by cases x <;> decide
  simp [addEvent, List.mem_filter, all]

/-- A frame given while the controller is not ATTACHED is discarded (R9). -/
theorem giveFrame_aside (kind : FrameKind) (body : List Byte) (s : State) (h : s.loop.attach ≠ .attached) :
    giveFrame kind body s = s := by
  simp [giveFrame, h]

/-- The own-frame queue after a frame is given (R9). -/
theorem giveFrame_own (kind : FrameKind) (body : List Byte) (s : State) :
    (giveFrame kind body s).loop.own =
      if s.loop.attach = .attached ∧ s.loop.own.length < 8 then s.loop.own ++ [ownFrame s kind body] else s.loop.own := by
  have own (t : State) : (arbitrate t).loop.own = t.loop.own := by
    simp
  unfold giveFrame
  repeat' split
  all_goals simp_all

/-- The table after a retirement (R77). -/
@[simp] theorem retire_pieces (r : PieceRecord) (kind : FrameKind) (body : List Byte) (s : State) :
    (retire r kind body s).tracker.pieces = s.tracker.pieces.filter (fun x => x.tag != r.tag) := by
  simp [retire]

/-- The bank slots after a retirement (R94). -/
@[simp] theorem retire_rates (r : PieceRecord) (kind : FrameKind) (body : List Byte) (s : State) :
    (retire r kind body s).rates = s.rates.setSlot r.binding.slot (s.rates.slot r.binding.slot).released := by
  simp [retire]

/-- The write queue holds no slot write more, and no commit more, after the waiting spoils are asked for again (R162): the writes it
gains stand at its end. -/
theorem retryWaiting_prefix (n : Nat) (s : State) : ∃ more, (retryWaiting n s).funds.writes = s.funds.writes ++ more := by
  induction n generalizing s with
  | zero => exact ⟨[], by simp [retryWaiting]⟩
  | succ n ih =>
    unfold retryWaiting
    split
    next t h =>
      obtain ⟨more, hm⟩ := ih t
      have grow : ∃ w, t.funds.writes = s.funds.writes ++ w := by
        unfold retryOne at h
        split at h
        · split at h
          · obtain rfl := Option.some.inj h
            exact ⟨[verdictWrite _ _], by simp only [requestVerdict, ‹s.takesOther = true›, if_true]; rfl⟩
          · split at h
            · obtain rfl := Option.some.inj h
              exact ⟨_, rfl⟩
            · exact absurd h (by simp)
        · exact absurd h (by simp)
      obtain ⟨w, hw⟩ := grow
      exact ⟨w ++ more, by rw [hm, hw, List.append_assoc]⟩
    next => exact ⟨[], by simp⟩

end Sys2Proof.Machine
end

