-- ==== Sys2Proof/Laws/Closing.lean ====
section
/-! SUPPORT. What the job operations do to the closing order (R29 to R32). -/

namespace Sys2Proof.Machine

/-- The closing order is no longer than the job table (R29). -/
theorem closing_length (i : Intake) (h : i.ClosingSound) : i.closing.length ≤ i.jobs.length := by
  obtain ⟨-, once, closed⟩ := h
  have inTable : i.closing.Subperm (i.jobs.map JobRecord.number) := by
    apply once.subperm
    intro n hn
    obtain ⟨j, hj, e, -⟩ := (closed n).mp hn
    exact e ▸ List.mem_map_of_mem hj
  simpa using inTable.length_le

/-- Where neither the table nor the closing order changes. -/
theorem closingSound_of_eq {i j : Intake} (h : i.ClosingSound) (jobs : j.jobs = i.jobs) (closing : j.closing = i.closing) :
    j.ClosingSound := by
  unfold Intake.ClosingSound at *
  rw [jobs, closing]
  exact h

/-- A job is found exactly when its number is in the table. -/
theorem job?_mem (s : State) (n : Nat) : (∃ j, s.job? n = some j) ↔ n ∈ s.intake.jobs.map JobRecord.number := by
  unfold State.job?
  rw [← Option.isSome_iff_exists, List.find?_isSome]
  simp

/-- A record of the table written anew under a number new to it, or its own: the old number leaves the closing order (R30, R31). -/
theorem rewriteJob_closingSound (i : Intake) (h : i.ClosingSound) (old new : Nat) (params : JobParams)
    (mem : old ∈ i.jobs.map JobRecord.number) (fresh : new = old ∨ new ∉ i.jobs.map JobRecord.number) :
    ({ i with jobs := i.jobs.map (fun j => if j.number = old then jobWritten new params else j)
              closing := i.closing.filter (fun x => x != old) } : Intake).ClosingSound := by
  obtain ⟨numbers, once, closed⟩ := h
  refine ⟨?_, once.filter _, ?_⟩
  · have renamed : (i.jobs.map (fun j => if j.number = old then jobWritten new params else j)).map JobRecord.number =
        (i.jobs.map JobRecord.number).map (fun x => if x = old then new else x) := by
      simp only [List.map_map]
      apply List.map_congr_left
      intro j _
      simp only [Function.comp]
      split <;> rfl
    show (List.map JobRecord.number (i.jobs.map _)).Nodup
    rw [renamed]
    apply List.Nodup.map_on _ numbers
    intro x hx y hy hxy
    rcases fresh with rfl | fresh
    · split_ifs at hxy <;> simp_all
    · split_ifs at hxy with h1 h2 h2
      · rw [h1, h2]
      · subst hxy
        exact absurd hy fresh
      · subst hxy
        exact absurd hx fresh
      · exact hxy
  · intro x
    simp only [List.mem_filter, bne_iff_ne, ne_eq, closed x, List.mem_map]
    constructor
    · rintro ⟨⟨j, hj, e, o⟩, hx⟩
      exact ⟨j, ⟨j, hj, by rw [if_neg (by rw [e]; exact hx)]⟩, e, o⟩
    · rintro ⟨j, ⟨j0, hj0, rfl⟩, e, o⟩
      split at e
      next h1 =>
        rw [if_pos h1] at o
        simp [jobWritten] at o
      next h1 =>
        rw [if_neg h1] at o
        exact ⟨⟨j0, hj0, e, o⟩, by rw [← e]; exact h1⟩

/-- A JOB OPEN (R30, R31). -/
theorem openJob_closingSound (n : Nat) (params : JobParams) (s : State) (h : s.intake.ClosingSound) :
    (openJob n params s).intake.ClosingSound := by
  unfold openJob
  split
  next j hj =>
    unfold reopenJob
    split
    · exact h
    · exact rewriteJob_closingSound s.intake h n n params ((job?_mem s n).mp ⟨j, hj⟩) (.inl rfl)
  next hj =>
    have fresh : n ∉ s.intake.jobs.map JobRecord.number := fun m => by
      obtain ⟨j, e⟩ := (job?_mem s n).mpr m
      rw [hj] at e
      cases e
    unfold placeJob
    split
    · obtain ⟨numbers, once, closed⟩ := h
      refine ⟨?_, once, ?_⟩
      · show (List.map _ (s.intake.jobs ++ [_])).Nodup
        rw [List.map_append]
        exact List.Nodup.append numbers (by simp) (by simpa [jobWritten] using fresh)
      · intro x
        rw [closed x]
        simp [jobWritten]
    · split
      next old ho =>
        obtain ⟨j, hj, e, -⟩ := (h.2.2 old).mp (List.mem_of_find?_eq_some ho)
        exact rewriteJob_closingSound s.intake h old n params (e ▸ List.mem_map_of_mem hj) (.inr fresh)
      next => exact h

/-- A job set CLOSED joins the end of the closing order (R32). -/
theorem markClosed_closingSound (n : Nat) (s : State) (h : s.intake.ClosingSound) : (markClosed n s).intake.ClosingSound := by
  unfold markClosed
  split
  next isOpen =>
    unfold State.jobIsOpen at isOpen
    split at isOpen
    next j hj =>
      have mem := List.mem_of_find?_eq_some hj
      have number : j.number = n := by
        have := List.find?_some hj
        simpa using this
      obtain ⟨numbers, once, closed⟩ := h
      have only : ∀ q ∈ s.intake.jobs, q.number = n → q = j := fun q hq e =>
        List.inj_on_of_nodup_map numbers hq mem (e.trans number.symm)
      refine ⟨?_, ?_, ?_⟩
      · show (List.map JobRecord.number (s.intake.jobs.map _)).Nodup
        rw [List.map_map]
        have same : (JobRecord.number ∘ fun j : JobRecord => if j.number = n then { j with isOpen := false } else j) =
            JobRecord.number := by
          funext j
          simp only [Function.comp]
          split <;> rfl
        rw [same]
        exact numbers
      · show (s.intake.closing ++ [n]).Nodup
        refine List.Nodup.append once (by simp) ?_
        simp only [List.disjoint_singleton]
        intro m
        obtain ⟨q, hq, e, o⟩ := (closed n).mp m
        rw [only q hq e, isOpen] at o
        cases o
      · intro x
        simp only [List.mem_append, List.mem_singleton, closed x, List.mem_map]
        constructor
        · rintro (⟨q, hq, e, o⟩ | rfl)
          · refine ⟨q, ⟨q, hq, ?_⟩, e, o⟩
            rw [if_neg]
            intro e'
            rw [only q hq e', isOpen] at o
            cases o
          · exact ⟨_, ⟨j, mem, rfl⟩, by rw [if_pos number]; exact number, by rw [if_pos number]⟩
        · rintro ⟨q, ⟨q0, hq0, rfl⟩, e, o⟩
          split at e
          next h1 => exact .inr (e.symm.trans h1)
          next h1 =>
            rw [if_neg h1] at o
            exact .inl ⟨q0, hq0, e, o⟩
    next => cases isOpen
  next => exact h

/-- A JOB CLOSE (R32, R47). -/
theorem closeJob_closingSound (n : Nat) (s : State) (h : s.intake.ClosingSound) : (closeJob n s).intake.ClosingSound := by
  unfold closeJob
  split
  · exact closingSound_of_eq (markClosed_closingSound n s h) (by simp) (by simp)
  · exact markClosed_closingSound n s h

end Sys2Proof.Machine
end

