-- ==== Sys2Proof/Laws/Line.lean ====
section
/-! SUPPORT. The checks and number fields bit by bit and octet by octet, and what a handed frame does to the Loop Port. -/

namespace Sys2Proof.Machine

/-! ## Checks, number fields and positions -/

/-- A check takes one more octet, its most significant bit first (R3, R145). -/
theorem checkOver_append (generator start : Word16) (octets : List Byte) (b : Byte) :
    checkOver generator start (octets ++ [b]) = [7, 6, 5, 4, 3, 2, 1, 0].foldl (fun (r : Word16) i =>
      if b.getLsbD i = r.getLsbD 15 then r <<< 1 else (r <<< 1) ^^^ generator) (checkOver generator start octets) := by
  simp only [checkOver, List.foldl_append, List.foldl_cons, List.foldl_nil, checkOctet, checkBit, BitVec.msb_eq_getLsbD_last]

/-- A two-octet field. -/
theorem toOctets_two (n : Nat) : toOctets 2 n = [BitVec.ofNat 8 (n / 256), BitVec.ofNat 8 n] := by
  simp [toOctets]

/-- A four-octet field. -/
theorem toOctets_four (n : Nat) : toOctets 4 n =
    [BitVec.ofNat 8 (n / 16777216), BitVec.ofNat 8 (n / 65536), BitVec.ofNat 8 (n / 256), BitVec.ofNat 8 n] := by
  simp [toOctets]

/-- The octets of a register. -/
theorem registerOctets_eq (r : Word16) : registerOctets r = [BitVec.ofNat 8 (r.toNat / 256), BitVec.ofNat 8 r.toNat] :=
  toOctets_two r.toNat

/-- The comparison of belt positions in numbers (spec/00_scope.md). -/
theorem reached_iff (p c : Position) :
    reached p c = true ↔ (p.toNat + 16777216 - c.toNat) % 16777216 < 8388608 := by
  simp only [reached, decide_eq_true_eq, BitVec.toNat_sub]
  have := p.isLt
  have := c.isLt
  omega

/-! ## The Loop Port at a handed frame -/

/-- A verdict leaves the Loop Port alone (R159 to R162). -/
theorem takeVerdict_loop (p : PieceNo) (station : Nat) (v : VerifyVerdict) (s : State) :
    (takeVerdict p station v s).loop = s.loop := by
  unfold takeVerdict matchedVerdict unmatchedVerdict
  simp only [requestVerdict, requestUnmatched, holdUnmatched]
  repeat' split
  all_goals simp [setFranked, enqueueWrite, raise]

/-- A message at its block, a notice aside, leaves the Loop Port alone (R5). -/
theorem hand_loop (m : LineMessage) (s : State) : (hand m s).loop = s.loop := by
  cases m with
  | notice | rateSwitch | forwardedOnly => rfl
  | measureReport | addressReport => simp only [hand, reportTo]; split <;> rfl
  | jobOpen => simp only [hand, openJob, reopenJob, placeJob]; repeat' split
               all_goals rfl
  | jobClose => simp only [hand, closeJob, enterQuiescing, settleQuiet, markClosed]; repeat' split
                all_goals rfl
  | verifyReport => exact takeVerdict_loop ..

/-- The Rate Store leaves the Loop Port alone (R90 to R93). -/
theorem askBank_keepsLoop (p : PieceNo) (s : State) : (askBank p s).1.loop = s.loop := by
  unfold askBank askActive bindTo noBank carryOutSwitch
  repeat' split
  all_goals rfl

/-- The arbiter sets the transmitter of a free outgoing link, and no more of the Loop Port (R10). -/
theorem arbitrate_loop (s : State) : (arbitrate s).loop = { s.loop with
    transmitter :=
      if s.loop.relay = .through ∧ s.loop.switching = none ∧ s.loop.transmitter = .idle then
        nextTransmitter s.loop.forward s.loop.own
      else s.loop.transmitter } := by
  obtain ⟨pw, md, l, i, tr, ra, en, st, fu, im, ve, po, ou, fc, pe⟩ := s
  obtain ⟨relay, sw, att, rec, idle, lost, fwd, own, trm, bad⟩ := l
  simp only [arbitrate]
  split
  next h =>
    obtain ⟨rfl, rfl, rfl⟩ := h
    cases fwd with
    | nil => cases own <;> rfl
    | cons e rest => simp only [nextTransmitter]; split <;> rfl
  next h => rfl

/-- A Loop Port left as it was, or one whose own-frame queue changed and whose arbiter has seen it (R9, R10). -/
def loopOrOwn (s : State) (l : LoopPort) : Prop :=
  l = s.loop ∨ ∃ own, l = (arbitrate { s with loop := { s.loop with own := own } }).loop

/-- Which Loop Ports these are depends on the Loop Port alone. -/
theorem loopOrOwn_of_eq {s t : State} {l : LoopPort} (e : t.loop = s.loop) (h : loopOrOwn t l) : loopOrOwn s l := by
  rcases h with h | ⟨own, h⟩
  · exact .inl (h.trans e)
  · refine .inr ⟨own, h.trans ?_⟩
    rw [arbitrate_loop, arbitrate_loop, e]

/-- A frame given to the Loop Port touches its own-frame queue and its transmitter, in ATTACHED alone (R9). -/
theorem giveFrame_loop (kind : FrameKind) (body : List Byte) (s : State) :
    (s.loop.attach ≠ .attached → (giveFrame kind body s).loop = s.loop) ∧ loopOrOwn s (giveFrame kind body s).loop := by
  unfold giveFrame
  split
  next h => exact ⟨fun k => absurd h k, by split <;> [exact .inr ⟨_, rfl⟩; exact .inl rfl]⟩
  next h => exact ⟨fun _ => rfl, .inl rfl⟩

/-- A take touches the Loop Port by its FEED HOLD alone (R42). -/
theorem take_loop (r : PieceRecord) (s : State) :
    (s.loop.attach ≠ .attached → (take r s).loop = s.loop) ∧ loopOrOwn s (take r s).loop := by
  unfold take feedHoldRule
  split
  · let t := dropPassing r.piece (addRecord r s)
    have h := giveFrame_loop .feedHold (feedBody t.tracker.pieces.length)
      { t with intake := { t.intake with feedHold := true } }
    exact ⟨h.1, by refine loopOrOwn_of_eq ?_ h.2; rfl⟩
  · exact ⟨fun _ => rfl, .inl rfl⟩

/-- The decision on a notice touches the Loop Port by the FEED HOLD of a take alone (R33 to R42). -/
theorem decideNotice_loop (n : Notice) (s : State) :
    ((decideNotice n s).2 = false ∨ s.loop.attach ≠ .attached → (decideNotice n s).1.loop = s.loop) ∧
    loopOrOwn s (decideNotice n s).1.loop := by
  have asked := askBank_keepsLoop n.piece s
  have taken : ∀ (t : State) (r : PieceRecord), t.loop = s.loop →
      (true = false ∨ s.loop.attach ≠ .attached → (take r t).loop = s.loop) ∧ loopOrOwn s (take r t).loop := by
    intro t r e
    have h := take_loop r t
    exact ⟨fun x => (h.1 (by simpa [e] using x)).trans e, loopOrOwn_of_eq e h.2⟩
  have passed : ∀ (t : State) (P : Prop), t.loop = s.loop → (P → t.loop = s.loop) ∧ loopOrOwn s t.loop :=
    fun t P e => ⟨fun _ => e, .inl e⟩
  unfold decideNotice decideOriginal decideReleased
  repeat' split
  all_goals first
    | (simp only; refine taken _ _ ?_; simp_all)
    | (refine passed _ _ ?_; simp_all [countDuplicate, enterPassing])

end Sys2Proof.Machine
end

