-- ==== Sys2Proof/Laws/Store.lean ====
section
/-! SUPPORT. What the notice of an open place and the failure of a store write do (R126, R134, R162). -/

namespace Sys2Proof.Machine

/-! ## The notice of an open place (R126, R162) -/

/-- A place is open to a verdict or unmatched spoil outside HALTED, with fewer than 6 writes in the queue (R126). -/
theorem takesOther_iff (s : State) : s.takesOther = true ↔ s.mode ≠ .halted ∧ s.funds.writes.length < 6 := by
  simp [State.takesOther]

/-- One waiting spoil asked for again needs an open place and adds one write to the end of the queue (R162). -/
theorem retryOne_adds (s t : State) (h : retryOne s = some t) :
    s.takesOther = true ∧ ∃ w, t.funds.writes = s.funds.writes ++ [w] := by
  unfold retryOne at h
  split at h
  · refine ⟨‹_›, ?_⟩
    split at h
    · obtain rfl := Option.some.inj h
      exact ⟨verdictWrite _ _, by simp only [requestVerdict, ‹s.takesOther = true›, if_true]; rfl⟩
    · split at h
      · obtain rfl := Option.some.inj h
        exact ⟨_, rfl⟩
      · exact absurd h (by simp)
  · exact absurd h (by simp)

/-- No spoil is asked for again at a queue of 6 writes or more (R126). -/
theorem retryOne_full (s : State) (h : 6 ≤ s.funds.writes.length) : retryOne s = none := by
  cases e : retryOne s with
  | none => rfl
  | some t =>
    have := (takesOther_iff s).mp (retryOne_adds s t e).1
    omega

/-- A turn more than the open places changes nothing. -/
theorem retryWaiting_enough (n : Nat) (s : State) (h : 6 ≤ n + s.funds.writes.length) :
    retryWaiting (n + 1) s = retryWaiting n s := by
  induction n generalizing s with
  | zero => simp [retryWaiting, retryOne_full s (by omega)]
  | succ n ih =>
    rw [retryWaiting]
    conv => rhs; rw [retryWaiting]
    split
    next t e =>
      obtain ⟨-, w, hw⟩ := retryOne_adds s t e
      exact ih t (by rw [hw]; simp; omega)
    next => rfl

/-- A notice asks for one waiting spoil and is then the notice in the state so reached (R162). -/
theorem placeNotice_step (s t : State) (h : retryOne s = some t) : placeNotice s = placeNotice t := by
  obtain ⟨isOpen, w, hw⟩ := retryOne_adds s t h
  have room := ((takesOther_iff s).mp isOpen).2
  have more : retryWaiting 6 s = retryWaiting 5 t := by simp [retryWaiting, h]
  simp only [placeNotice, room, if_true, more]
  split
  · exact (retryWaiting_enough 5 t (by rw [hw]; simp; omega)).symm
  · simp [retryWaiting, retryOne_full t (by omega)]

/-- A notice changes nothing when nothing waits or no place is open (R162). -/
theorem placeNotice_end (s : State) (h : retryOne s = none) : placeNotice s = s := by
  simp [placeNotice, retryWaiting, h]

/-- What holds of a state in which nothing more is asked for, and is carried back over one request, holds of every notice. -/
theorem placeNotice_induction (P : State → State → Prop) (last : ∀ s, retryOne s = none → P s s)
    (turn : ∀ s t u, retryOne s = some t → P t u → P s u) (s : State) : P s (placeNotice s) := by
  have go : ∀ n (s : State), 6 ≤ n + s.funds.writes.length → P s (placeNotice s) := by
    intro n
    induction n with
    | zero =>
      intro s h
      have e := retryOne_full s (by omega)
      rw [placeNotice_end s e]
      exact last s e
    | succ n ih =>
      intro s h
      cases e : retryOne s with
      | none => rw [placeNotice_end s e]; exact last s e
      | some t =>
        obtain ⟨-, w, hw⟩ := retryOne_adds s t e
        rw [placeNotice_step s t e]
        exact turn s t _ e (ih t (by rw [hw]; simp; omega))
  exact go 6 s (by omega)

/-- After a notice nothing more is asked for (R162). -/
theorem placeNotice_done (s : State) : retryOne (placeNotice s) = none :=
  placeNotice_induction (fun _ u => retryOne u = none) (fun _ h => h) (fun _ _ _ _ h => h) s

/-! ## Events and slots that stay -/

/-- An event that is pending stays pending when another is raised (R172). -/
theorem raise_keeps_pending (e x : Event) (s : State) (h : x ∈ s.port.events) : x ∈ (raise e s).port.events :=
  (mem_addEvent_iff e x _).mpr (.inr h)

/-- A frame given takes no event out of the pending set (R9). -/
theorem giveFrame_keeps_pending (kind : FrameKind) (body : List Byte) (x : Event) (s : State) (h : x ∈ s.port.events) :
    x ∈ (giveFrame kind body s).port.events := by
  unfold giveFrame
  repeat' split
  · simpa using h
  · exact raise_keeps_pending _ _ _ h
  · exact h

/-- A retirement takes no event out of the pending set (R77). -/
theorem retire_keeps_pending (r : PieceRecord) (kind : FrameKind) (body : List Byte) (x : Event) (s : State)
    (h : x ∈ s.port.events) : x ∈ (retire r kind body s).port.events := by
  have given : x ∈ (giveAtRetirement kind body (removeRecord r s)).port.events := by
    unfold giveAtRetirement
    simp only
    repeat' split
    all_goals repeat' apply giveFrame_keeps_pending
    all_goals exact h
  unfold retire settleQuiet
  split
  · exact raise_keeps_pending _ _ _ given
  · exact given

/-- A slot replaced leaves the switch point (R89). -/
@[simp] theorem RateStore.setSlot_switchPoint (b : RateStore) (n : SlotNo) (v : BankSlot) :
    (b.setSlot n v).switchPoint = b.switchPoint := by
  cases n <;> rfl

/-! ## A failed write (R134) -/

/-- What the failure of a store write keeps, in HALTED without a quiesce condition and with STORE_FAULT pending. -/
def failKeeps (s t : State) : Prop :=
  t.mode = .halted ∧ t.intake.quiesce = .none ∧ .storeFault ∈ t.port.events ∧ t.store = s.store ∧
    t.funds.writes = s.funds.writes ∧ t.rates.switchPoint = s.rates.switchPoint ∧ t.loop.attach = s.loop.attach ∧
    t.imprint = s.imprint ∧ t.engine = s.engine

/-- The levels judged in HALTED (R140). -/
theorem judgeFunds_failKeeps (s : State) (h : failKeeps s s) : failKeeps s (judgeFunds s) := by
  obtain ⟨mode, quiesce, fault, -⟩ := h
  have kept : (judgeFunds s).mode = .halted ∧ (judgeFunds s).intake.quiesce = .none ∧
      .storeFault ∈ (judgeFunds s).port.events := by
    unfold judgeFunds
    split
    · exact ⟨mode, quiesce, fault⟩
    · simp only [judgeOut, judgeLow, meetFundsLow]
      repeat' split
      all_goals simp_all [raise, mem_addEvent_iff]
  exact ⟨kept.1, kept.2.1, kept.2.2, by simp, by simp, by simp, by simp, by simp, by simp⟩

/-- A piece missed in HALTED (R73, R76). -/
theorem missPiece_failKeeps (r : PieceRecord) (cause : FrankCause) (serial : Nat) (s : State) (h : failKeeps s s) :
    failKeeps s (missPiece r cause serial s) := by
  obtain ⟨mode, quiesce, fault, -⟩ := h
  have still : (missPiece r cause serial s).mode = .halted := by
    simp [missPiece, retireReported, retire, settleQuiet, mode]
  exact ⟨still, by simp [quiesce], retire_keeps_pending _ _ _ _ _ (raise_keeps_pending _ _ _ fault), by simp, by simp,
    by simp [missPiece, retireReported], by simp, by simp, by simp⟩

/-- A chain of two. -/
theorem failKeeps_trans {s t u : State} (h : failKeeps s t) (k : failKeeps t u) : failKeeps s u := by
  unfold failKeeps at *
  simp_all

/-- What is kept is kept again. -/
theorem failKeeps_again {s t : State} (h : failKeeps s t) : failKeeps t t := by
  unfold failKeeps at *
  simp_all

/-- A failed write leaves the head in HALTED, the store, the queue, the switch point, the attach state, the Imprint Unit and the
Rating Engine as they are (R134). -/
theorem failWrite_keeps (s : State) (w : StoreWrite) (h : failKeeps s s) : failKeeps s (failWrite s w) := by
  have slot (serial : Nat) : failKeeps s (failSlotWrite serial s) := by
    unfold failSlotWrite
    split
    · exact h
    · exact missPiece_failKeeps _ _ _ _ h
  unfold failWrite
  split
  · have lowered (postage : Nat) : failKeeps s (lowerPledge postage s) := h
    have judged (postage : Nat) := failKeeps_trans (lowered postage) (judgeFunds_failKeeps _ (failKeeps_again (lowered postage)))
    unfold failCommit
    simp only
    split
    · exact judged _
    · exact failKeeps_trans (judged _) (missPiece_failKeeps _ _ _ _ (failKeeps_again (judged _)))
  · exact slot _
  · split
    · exact h
    · exact slot _
  · exact h
  · unfold holdUnmatched
    split
    · exact h
    · exact h
  · exact h
  · exact h

/-- The whole queue failed in order keeps what one failed write keeps (R134). -/
theorem foldl_failWrite_keeps (writes : List StoreWrite) (s : State) (h : failKeeps s s) :
    failKeeps s (writes.foldl failWrite s) := by
  induction writes generalizing s with
  | nil => exact h
  | cons w rest ih =>
    have one := failWrite_keeps s w h
    exact failKeeps_trans one (ih _ (failKeeps_again one))

end Sys2Proof.Machine
end

