-- ==== Sys2Proof/Laws/Settled.lean ====
section
/-! SUPPORT. What the operations do to the imprints outstanding: the print path, the records in COMMITTED and FINISHING, the slots and
the slot writes (R120, R126, R138, R142). -/

namespace Sys2Proof.Machine

/-! ## Counting -/

/-- The records in a state with a serial, counted. -/
theorem count_serialsIn (state : PieceState) (pieces : List PieceRecord) (x : Option Nat) :
    (serialsIn state pieces).count x = pieces.countP (fun r => r.state == state && r.serial == x) := by
  rw [serialsIn, List.count, List.countP_map, List.countP_filter]
  refine List.countP_congr fun r _ => ?_
  simp [and_comm]

/-- A record taken out of a table whose tags name the records. -/
theorem countP_remove (p : PieceRecord → Bool) (pieces : List PieceRecord) (r : PieceRecord)
    (tags : (pieces.map PieceRecord.tag).Nodup) (mem : r ∈ pieces) :
    (pieces.filter (fun x => x.tag != r.tag)).countP p + (if p r then 1 else 0) = pieces.countP p := by
  induction pieces with
  | nil => simp at mem
  | cons a rest ih =>
    simp only [List.map_cons, List.nodup_cons] at tags
    rcases List.mem_cons.mp mem with rfl | mem
    · have all : rest.filter (fun x => x.tag != r.tag) = rest := by
        rw [List.filter_eq_self]
        intro x hx
        have : x.tag ≠ r.tag := fun e => tags.1 (e ▸ List.mem_map_of_mem hx)
        simpa using this
      simp [List.countP_cons, all]
    · have other : a.tag ≠ r.tag := fun e => tags.1 (e ▸ List.mem_map_of_mem mem)
      have := ih tags.2 mem
      simp only [List.filter_cons, bne_iff_ne, ne_eq, other, not_false_eq_true, if_true, List.countP_cons]
      omega

/-- A record changed in a table whose tags name the records. -/
theorem countP_change (p : PieceRecord → Bool) (change : PieceRecord → PieceRecord) (pieces : List PieceRecord) (r : PieceRecord)
    (tags : (pieces.map PieceRecord.tag).Nodup) (mem : r ∈ pieces) :
    (pieces.map (fun x => if x.tag = r.tag then change x else x)).countP p + (if p r then 1 else 0) =
      pieces.countP p + (if p (change r) then 1 else 0) := by
  induction pieces with
  | nil => simp at mem
  | cons a rest ih =>
    simp only [List.map_cons, List.nodup_cons] at tags
    rcases List.mem_cons.mp mem with rfl | mem
    · have all : rest.map (fun x => if x.tag = r.tag then change x else x) = rest := by
        conv => rhs; rw [← List.map_id rest]
        refine List.map_congr_left fun x hx => ?_
        have : x.tag ≠ r.tag := fun e => tags.1 (e ▸ List.mem_map_of_mem hx)
        simp [this]
      simp only [List.map_cons, if_true, all, List.countP_cons]
      omega
    · have other : a.tag ≠ r.tag := fun e => tags.1 (e ▸ List.mem_map_of_mem mem)
      have := ih tags.2 mem
      simp only [List.map_cons, other, if_false, List.countP_cons]
      omega

/-! ## What stays -/

/-- The tags and serials of the records in a state. -/
def standing (state : PieceState) (pieces : List PieceRecord) : List (Nat × Option Nat) :=
  (pieces.filter (fun r => r.state == state)).map (fun r => (r.tag, r.serial))

/-- Two states that agree in what the imprints outstanding are judged by. -/
def sameImprints (s t : State) : Prop :=
  t.imprint.path.map (fun e => (e.tag, e.serial)) = s.imprint.path.map (fun e => (e.tag, e.serial)) ∧
    standing .committed t.tracker.pieces = standing .committed s.tracker.pieces ∧
    standing .finishing t.tracker.pieces = standing .finishing s.tracker.pieces ∧
    closingSerials t.funds.writes = closingSerials s.funds.writes ∧
    conversionSerials t.funds.writes = conversionSerials s.funds.writes ∧
    t.store.open0 = s.store.open0 ∧ t.store.open1 = s.store.open1 ∧ t.store.pc = s.store.pc

/-- Two states that agree in the imprints outstanding, in being HALTED and in the start-up state; the second has other writes only
where writes are admitted. -/
def calm (s t : State) : Prop :=
  sameImprints s t ∧ (t.mode = .halted ↔ s.mode = .halted) ∧ t.funds.startup = s.funds.startup ∧
    (t.funds.writes = s.funds.writes ∨ s.mode ≠ .halted ∧ s.funds.startup ≠ .reading) ∧
    (s.funds.startup = .reading → s.mode = .setup → t.mode = .setup)

/-- Agreement in the imprints outstanding chains. -/
theorem sameImprints_trans {s t u : State} (h : sameImprints s t) (k : sameImprints t u) : sameImprints s u := by
  obtain ⟨h1, h2, h3, h4, h5, h6, h7, h8⟩ := h
  obtain ⟨k1, k2, k3, k4, k5, k6, k7, k8⟩ := k
  exact ⟨k1.trans h1, k2.trans h2, k3.trans h3, k4.trans h4, k5.trans h5, k6.trans h6, k7.trans h7, k8.trans h8⟩

/-- Nothing changed. -/
theorem calm_refl (s : State) : calm s s :=
  ⟨⟨rfl, rfl, rfl, rfl, rfl, rfl, rfl, rfl⟩, Iff.rfl, rfl, .inl rfl, fun _ h => h⟩

/-- A chain of two. -/
theorem calm_trans {s t u : State} (h : calm s t) (k : calm t u) : calm s u := by
  obtain ⟨h1, h2, h3, h4, h5⟩ := h
  obtain ⟨k1, k2, k3, k4, k5⟩ := k
  refine ⟨sameImprints_trans h1 k1, k2.trans h2, k3.trans h3, ?_, fun a b => k5 (h3.trans a) (h5 a b)⟩
  rcases k4 with k4 | ⟨k4, k6⟩
  · rcases h4 with h4 | h4
    · exact .inl (k4.trans h4)
    · exact .inr h4
  · exact .inr ⟨fun a => k4 (h2.mpr a), fun a => k6 (h3.trans a)⟩

/-- States that agree in the fields themselves. -/
theorem calm_of_eq {s t : State} (path : t.imprint.path = s.imprint.path) (pieces : t.tracker.pieces = s.tracker.pieces)
    (store : t.store = s.store) (writes : t.funds.writes = s.funds.writes) (startup : t.funds.startup = s.funds.startup)
    (mode : t.mode = s.mode) : calm s t := by
  refine ⟨⟨?_, ?_, ?_, ?_, ?_, ?_, ?_, ?_⟩, ?_, startup, .inl writes, ?_⟩ <;> simp_all

/-- The serials of the records in a state, from their tags and serials. -/
theorem serialsIn_of_standing {state : PieceState} {p q : List PieceRecord} (h : standing state p = standing state q) :
    serialsIn state p = serialsIn state q := by
  have := congrArg (List.map Prod.snd) h
  simpa [standing, serialsIn, Function.comp_def] using this

/-- A tag and serial stand for a record in the state. -/
theorem mem_standing {state : PieceState} {pieces : List PieceRecord} {tag : Nat} {serial : Option Nat} :
    (tag, serial) ∈ standing state pieces ↔ ∃ r ∈ pieces, r.tag = tag ∧ r.state = state ∧ r.serial = serial := by
  simp only [standing, List.mem_map, List.mem_filter, beq_iff_eq, Prod.mk.injEq]
  constructor
  · rintro ⟨r, ⟨hr, hs⟩, ht, hx⟩
    exact ⟨r, hr, ht, hs, hx⟩
  · rintro ⟨r, hr, ht, hs, hx⟩
    exact ⟨r, ⟨hr, hs⟩, ht, hx⟩

/-- PathSound by the pairs of tag and serial. -/
theorem pathSound_iff (s : State) : s.PathSound ↔
    (s.imprint.path.map PathEntry.tag).Nodup ∧
      ∀ x ∈ s.imprint.path.map (fun e => (e.tag, e.serial)), (x.1, some x.2) ∈ standing .committed s.tracker.pieces := by
  unfold State.PathSound
  refine and_congr Iff.rfl ?_
  constructor
  · intro h x hx
    obtain ⟨e, he, rfl⟩ := List.mem_map.mp hx
    obtain ⟨r, hr, a, b, c⟩ := h e he
    exact mem_standing.mpr ⟨r, hr, a, b, c⟩
  · intro h e he
    obtain ⟨r, hr, a, b, c⟩ := mem_standing.mp (h _ (List.mem_map_of_mem (f := fun e => (e.tag, e.serial)) he))
    exact ⟨r, hr, a, b, c⟩

/-- The print path goes with the same records. -/
theorem sameImprints_pathSound {s t : State} (h : sameImprints s t) (k : s.PathSound) : t.PathSound := by
  rw [pathSound_iff] at k ⊢
  have tags := congrArg (List.map Prod.fst) h.1
  simp only [List.map_map, Function.comp_def] at tags
  rw [h.1, h.2.1, show t.imprint.path.map PathEntry.tag = s.imprint.path.map PathEntry.tag from tags]
  exact k

/-- The occupied slots, from the two slots. -/
theorem openSerials_of_eq {a b : Store} (h0 : a.open0 = b.open0) (h1 : a.open1 = b.open1) : a.occupied = b.occupied := by
  simp [Store.occupied, h0, h1]

/-- What is sound stays sound where nothing of it changes. -/
theorem calm_settled {s t : State} (h : calm s t) (k : s.Settled) : t.Settled := by
  obtain ⟨same, halted, startup, writes, setup⟩ := h
  obtain ⟨path, ⟨sub, perm⟩, closing, stopped, reading⟩ := k
  have c := serialsIn_of_standing same.2.1
  have f := serialsIn_of_standing same.2.2.1
  have o : t.store.openSerials = s.store.openSerials := by
    simp [Store.openSerials, openSerials_of_eq same.2.2.2.2.2.1 same.2.2.2.2.2.2.1]
  have a : t.answered = s.answered := by
    simp [State.answered, c, f, same.2.2.2.2.1]
  refine ⟨sameImprints_pathSound same path, ⟨by rw [a, o]; exact sub, fun m r => ?_⟩, ?_, fun m => ?_, fun r => ?_⟩
  · rw [a, o]
    exact perm (fun x => m (halted.mpr x)) (fun x => r (startup.trans x))
  · rw [same.2.2.2.1, f]
    exact closing
  · rcases writes with w | w
    · rw [w]
      exact stopped (halted.mp m)
    · exact absurd (halted.mp m) w.1
  · have r' := startup.symm.trans r
    refine ⟨setup r' (reading r').1, ?_⟩
    rcases writes with w | w
    · rw [w]
      exact (reading r').2
    · exact absurd r' w.2

/-- The serials stay sound where nothing of them changes. -/
theorem calm_serialsSound {s t : State} (h : calm s t) (k : s.SerialsSound) : t.SerialsSound := by
  obtain ⟨same, -⟩ := h
  obtain ⟨nodup, ahead, entries⟩ := k
  have o := openSerials_of_eq same.2.2.2.2.2.1 same.2.2.2.2.2.2.1
  refine ⟨by simpa [Store.openSerials, o] using nodup, by rw [o, same.2.2.2.2.2.2.2]; exact ahead, fun r hr hc => ?_⟩
  have mem : (r.tag, r.serial) ∈ standing .committed s.tracker.pieces := by
    rw [← same.2.1]
    exact mem_standing.mpr ⟨r, hr, rfl, hc, rfl⟩
  obtain ⟨q, hq, ht, hs, -⟩ := mem_standing.mp mem
  obtain ⟨e, he, het⟩ := entries q hq hs
  have : (e.tag, e.serial) ∈ t.imprint.path.map (fun e => (e.tag, e.serial)) := by
    rw [same.1]
    exact List.mem_map_of_mem (f := fun e => (e.tag, e.serial)) he
  obtain ⟨e', he', hx⟩ := List.mem_map.mp this
  exact ⟨e', he', (Prod.mk.inj hx).1.trans (het.trans ht)⟩


/-! ## The operations -/

/-- Whether a state is one whose records are answered for by the slots. -/
def PieceState.outstanding : PieceState → Bool
  | .committed | .finishing => true
  | .taken | .ready | .rating | .rated | .committing => false

/-- A change that keeps the tag and the serial of a record and neither brings it into COMMITTED or FINISHING nor takes it out. -/
def harmless (change : PieceRecord → PieceRecord) (r : PieceRecord) : Prop :=
  (change r).tag = r.tag ∧ (change r).serial = r.serial ∧
    ((change r).state = r.state ∨ (change r).state.outstanding = false ∧ r.state.outstanding = false)

/-- A harmless change leaves the records in COMMITTED and FINISHING. -/
theorem standing_change (state : PieceState) (out : state.outstanding = true) (tag : Nat) (change : PieceRecord → PieceRecord)
    (pieces : List PieceRecord) (h : ∀ r ∈ pieces, r.tag = tag → harmless change r) :
    standing state (pieces.map (fun r => if r.tag = tag then change r else r)) = standing state pieces := by
  induction pieces with
  | nil => rfl
  | cons a rest ih =>
    have tail := ih (fun r hr => h r (List.mem_cons_of_mem _ hr))
    simp only [standing, List.map_cons, List.filter_cons] at tail ⊢
    by_cases e : a.tag = tag
    · obtain ⟨t, x, s⟩ := h a List.mem_cons_self e
      simp only [e, if_true]
      have same : ((change a).state == state) = (a.state == state) := by
        rcases s with s | ⟨s, k⟩
        · rw [s]
        · have n (p : PieceState) (hp : p.outstanding = false) : (p == state) = false := by
            by_contra c
            have : p = state := by simpa using c
            rw [this, out] at hp
            exact absurd hp (by decide)
          rw [n _ s, n _ k]
      rw [same]
      split
      · simp only [List.map_cons, t, x, e, tail]
      · exact tail
    · simp only [e, if_false]
      split
      · simp only [List.map_cons, tail]
      · exact tail

/-- A harmless change of a record (R59 to R72). -/
theorem changeRecord_calm (tag : Nat) (change : PieceRecord → PieceRecord) (s : State)
    (h : ∀ r ∈ s.tracker.pieces, r.tag = tag → harmless change r) : calm s (changeRecord tag change s) :=
  ⟨⟨rfl, standing_change _ rfl tag change _ h, standing_change _ rfl tag change _ h, rfl, rfl, rfl, rfl, rfl⟩, Iff.rfl, rfl, .inl rfl,
    fun _ m => m⟩

/-- A record that no slot answers for leaves the table. -/
theorem standing_remove (state : PieceState) (out : state.outstanding = true) (pieces : List PieceRecord) (tag : Nat)
    (h : ∀ r ∈ pieces, r.tag = tag → r.state.outstanding = false) :
    standing state (pieces.filter (fun x => x.tag != tag)) = standing state pieces := by
  unfold standing
  congr 1
  rw [List.filter_filter]
  refine List.filter_congr fun r hr => ?_
  by_cases e : r.tag = tag
  · have := h r hr e
    have : (r.state == state) = false := by
      by_contra c
      have : r.state = state := by simpa using c
      simp_all
    simp [this]
  · simp [e]

/-- Becoming QUIET changes a head mode that is QUIESCING (R49): HALTED and SETUP are not entered or left. -/
theorem settleQuiet_mode (s : State) :
    ((settleQuiet s).mode = .halted ↔ s.mode = .halted) ∧ (s.mode = .setup → (settleQuiet s).mode = .setup) := by
  unfold settleQuiet
  split
  next h => simp [raise, h.1]
  next => simp

/-- The head mode after a retirement (R49, R77): HALTED before and after, or neither; SETUP stays. -/
theorem retire_mode (r : PieceRecord) (kind : FrameKind) (body : List Byte) (s : State) :
    ((retire r kind body s).mode = .halted ↔ s.mode = .halted) ∧ (s.mode = .setup → (retire r kind body s).mode = .setup) := by
  have := settleQuiet_mode (giveAtRetirement kind body (removeRecord r s))
  simpa [retire] using this

/-- The retirement of a record that no slot answers for. -/
theorem retire_calm (r : PieceRecord) (kind : FrameKind) (body : List Byte) (s : State)
    (h : ∀ q ∈ s.tracker.pieces, q.tag = r.tag → q.state.outstanding = false) : calm s (retire r kind body s) := by
  have mode := retire_mode r kind body s
  refine ⟨⟨by simp, ?_, ?_, by simp, by simp, by simp, by simp, by simp⟩, mode.1, by simp, .inl (by simp), fun _ => mode.2⟩
  · rw [retire_pieces]
    exact standing_remove _ rfl _ _ h
  · rw [retire_pieces]
    exact standing_remove _ rfl _ _ h

/-- An event raised (R172). -/
theorem raise_calm (e : Event) (s : State) : calm s (raise e s) :=
  calm_of_eq rfl rfl rfl rfl rfl rfl

/-- A piece missed whose record no slot answers for (R70, R71, R73). -/
theorem missPiece_calm (r : PieceRecord) (cause : FrankCause) (serial : Nat) (s : State)
    (h : ∀ q ∈ s.tracker.pieces, q.tag = r.tag → q.state.outstanding = false) : calm s (missPiece r cause serial s) :=
  calm_trans (raise_calm _ _) (retire_calm _ _ _ _ h)

/-- A record that no slot answers for joins the table (R54). -/
theorem insertRecord_standing (state : PieceState) (out : state.outstanding = true) (r : PieceRecord) (h : r.state.outstanding = false)
    (pieces : List PieceRecord) : standing state (insertRecord r pieces) = standing state pieces := by
  have hr : (r.state == state) = false := by
    by_contra c
    have : r.state = state := by simpa using c
    simp_all
  induction pieces with
  | nil => simp [insertRecord, standing, hr]
  | cons a rest ih =>
    unfold insertRecord
    split
    · simp only [standing, List.filter_cons] at ih ⊢
      split
      · simp only [List.map_cons, ih]
      · exact ih
    · simp [standing, List.filter_cons, hr]

/-- A take (R35, R39). -/
theorem take_calm (r : PieceRecord) (s : State) (h : r.state.outstanding = false) : calm s (take r s) := by
  have p : (take r s).tracker.pieces = insertRecord r s.tracker.pieces := by
    unfold take feedHoldRule
    split <;> simp [addRecord, dropPassing]
  refine ⟨⟨by simp, ?_, ?_, by simp, by simp, by simp, by simp, by simp⟩, by simp, by simp, .inl (by simp), by simp⟩
  · rw [p]
    exact insertRecord_standing _ rfl r h _
  · rw [p]
    exact insertRecord_standing _ rfl r h _

/-- The slot writes of two queues. -/
theorem closingSerials_append (a b : List StoreWrite) : closingSerials (a ++ b) = closingSerials a ++ closingSerials b :=
  List.filterMap_append

/-- The conversion writes of two queues. -/
theorem conversionSerials_append (a b : List StoreWrite) : conversionSerials (a ++ b) = conversionSerials a ++ conversionSerials b :=
  List.filterMap_append

/-- A write that is no slot write has no serial to answer for. -/
theorem noSerials (w : StoreWrite) (h : isSlotWrite w = false) : closingSerials [w] = [] ∧ conversionSerials [w] = [] := by
  cases w <;> simp_all [isSlotWrite, closingSerials, conversionSerials]

/-- A write that is no slot write is admitted. -/
theorem enqueueWrite_calm (w : StoreWrite) (s : State) (h : isSlotWrite w = false) (m : s.mode ≠ .halted)
    (r : s.funds.startup ≠ .reading) : calm s (enqueueWrite w s) := by
  have n := noSerials w h
  refine ⟨⟨rfl, rfl, rfl, ?_, ?_, rfl, rfl, rfl⟩, Iff.rfl, rfl, .inr ⟨m, r⟩, fun _ x => x⟩
  · show closingSerials (s.funds.writes ++ [w]) = _
    rw [closingSerials_append, n.1, List.append_nil]
  · show conversionSerials (s.funds.writes ++ [w]) = _
    rw [conversionSerials_append, n.2, List.append_nil]

/-- A verify state changed (R158). -/
theorem setFranked_calm (serial : Nat) (state : VerifyState) (reason : Option SpoilReason) (s : State) :
    calm s (setFranked serial state reason s) :=
  calm_of_eq rfl rfl rfl rfl rfl rfl

/-- A verdict spoil asked for (R162). -/
theorem requestVerdict_calm (e : FrankedEntry) (reason : SpoilReason) (s : State) (r : s.funds.startup ≠ .reading) :
    calm s (requestVerdict e reason s) := by
  unfold requestVerdict
  split
  next h =>
    exact calm_trans (setFranked_calm _ _ _ s) (enqueueWrite_calm _ _ rfl ((takesOther_iff s).mp h).1 r)
  next => exact setFranked_calm _ _ _ s

/-- A piece number held in the unmatched list (R162). -/
theorem holdUnmatched_calm (p : PieceNo) (s : State) : calm s (holdUnmatched p s) := by
  unfold holdUnmatched
  split
  · exact calm_of_eq rfl rfl rfl rfl rfl rfl
  · exact calm_refl s

/-- An unmatched spoil asked for (R162). -/
theorem requestUnmatched_calm (p : PieceNo) (s : State) (r : s.funds.startup ≠ .reading) : calm s (requestUnmatched p s) := by
  unfold requestUnmatched
  split
  next h => exact enqueueWrite_calm _ _ rfl ((takesOther_iff s).mp h).1 r
  next => exact holdUnmatched_calm p s

/-- One waiting spoil asked for again (R162). -/
theorem retryOne_calm (s t : State) (h : retryOne s = some t) (r : s.funds.startup ≠ .reading) : calm s t := by
  unfold retryOne at h
  split at h
  next isOpen =>
    split at h
    · obtain rfl := Option.some.inj h
      exact requestVerdict_calm _ _ s r
    · split at h
      next p rest _ =>
        obtain rfl := Option.some.inj h
        refine calm_trans (t := { s with verify := { s.verify with unmatched := rest } }) (calm_of_eq rfl rfl rfl rfl rfl rfl) ?_
        exact enqueueWrite_calm _ _ rfl ((takesOther_iff s).mp isOpen).1 r
      · exact absurd h (by simp)
  next => exact absurd h (by simp)

/-- The notice of an open place (R126, R162). -/
theorem placeNotice_calm (s : State) (r : s.funds.startup ≠ .reading) : calm s (placeNotice s) :=
  placeNotice_induction (fun s u => s.funds.startup ≠ .reading → calm s u) (fun s _ _ => calm_refl s)
    (fun s t u h k r => by
      have c := retryOne_calm s t h r
      exact calm_trans c (k (fun e => r (c.2.2.1.symm.trans e)))) s r

/-- A message to the engine (R147). -/
theorem sendEngine_calm (m : EngineMessage) (s : State) : calm s (sendEngine m s) := by
  unfold sendEngine
  split
  · exact calm_of_eq rfl rfl rfl rfl rfl rfl
  · exact calm_refl s

/-- QUIESCING entered from RUNNING (R46 to R48). -/
theorem enterQuiescing_calm (s : State) (h : s.mode = .running) : calm s (enterQuiescing s) := by
  refine ⟨⟨by simp, by simp, by simp, by simp, by simp, by simp, by simp, by simp⟩, ?_, by simp, .inl (by simp), ?_⟩
  · have := (settleQuiet_mode { s with mode := .quiescing, intake := { s.intake with quiesce := .none } }).1
    simp only [enterQuiescing, this, h]
    simp
  · intro _ x
    simp [h] at x

/-- A quiesce condition is held in RUNNING only (R46). -/
def State.QuiesceHeld (s : State) : Prop :=
  s.intake.quiesce ≠ .none → s.mode = .running

/-- The funds levels judged (R140). -/
theorem judgeFunds_calm (s : State) (q : s.QuiesceHeld) : calm s (judgeFunds s) := by
  unfold judgeFunds
  split
  · exact calm_refl s
  · rename_i c _
    have low : calm s (judgeLow c s) := by
      unfold judgeLow
      repeat' split
      · exact calm_refl s
      · unfold meetFundsLow
        split
        next h =>
          have running : s.mode = .running := q (by
            intro e
            simp [raise] at h
            rw [e] at h
            cases h)
          exact calm_trans (t := raise .fundsLow { s with funds := { s.funds with lowMark := true } })
            (calm_of_eq rfl rfl rfl rfl rfl rfl) (enterQuiescing_calm _ running)
        next => exact calm_of_eq rfl rfl rfl rfl rfl rfl
      · exact calm_of_eq rfl rfl rfl rfl rfl rfl
    refine calm_trans low ?_
    unfold judgeOut
    repeat' split
    · exact calm_refl _
    all_goals exact calm_of_eq rfl rfl rfl rfl rfl rfl

/-- The spoil levels judged (R141). -/
theorem judgeSpoils_calm (before : Nat) (s : State) : calm s (judgeSpoils before s) := by
  unfold judgeSpoils judgeFull judgeWarn
  repeat' split
  all_goals exact calm_of_eq rfl rfl rfl rfl rfl rfl

/-! ## The slots and the writes, counted -/

/-- How many records in a state carry a serial. -/
def owed (state : PieceState) (pieces : List PieceRecord) (x : Option Nat) : Nat :=
  pieces.countP (fun r => r.state == state && r.serial == x)

/-- What is answered for, by its three parts. -/
theorem count_answered (s : State) (x : Option Nat) : s.answered.count x =
    owed .committed s.tracker.pieces x + owed .finishing s.tracker.pieces x + (conversionSerials s.funds.writes).count x := by
  simp [State.answered, List.count_append, count_serialsIn, owed, Nat.add_assoc]

/-- Each of those answered for has a slot of its own, by counts. -/
theorem answered_subperm_iff (s : State) : s.answered.Subperm s.store.openSerials ↔
    ∀ x, owed .committed s.tracker.pieces x + owed .finishing s.tracker.pieces x + (conversionSerials s.funds.writes).count x ≤
      s.store.openSerials.count x := by
  rw [List.subperm_ext_iff]
  constructor
  · intro h x
    rw [← count_answered]
    by_cases m : x ∈ s.answered
    · exact h x m
    · rw [List.count_eq_zero_of_not_mem m]
      exact Nat.zero_le _
  · intro h x _
    rw [count_answered]
    exact h x

/-- The slots are those answered for, by counts. -/
theorem answered_perm_iff (s : State) : s.answered.Perm s.store.openSerials ↔
    ∀ x, owed .committed s.tracker.pieces x + owed .finishing s.tracker.pieces x + (conversionSerials s.funds.writes).count x =
      s.store.openSerials.count x := by
  rw [List.perm_iff_count]
  simp only [count_answered]

/-- The slot writes are those of the records in FINISHING, by counts. -/
theorem closing_perm_iff (s : State) : (closingSerials s.funds.writes).Perm (serialsIn .finishing s.tracker.pieces) ↔
    ∀ x, (closingSerials s.funds.writes).count x = owed .finishing s.tracker.pieces x := by
  rw [List.perm_iff_count]
  simp only [count_serialsIn, owed]

/-- A record taken out of the table. -/
theorem owed_remove (state : PieceState) (pieces : List PieceRecord) (r : PieceRecord) (tags : (pieces.map PieceRecord.tag).Nodup)
    (mem : r ∈ pieces) (x : Option Nat) :
    owed state (pieces.filter (fun q => q.tag != r.tag)) x + (if r.state = state ∧ r.serial = x then 1 else 0) =
      owed state pieces x := by
  have := countP_remove (fun q => q.state == state && q.serial == x) pieces r tags mem
  simpa [owed] using this

/-- A record changed in the table. -/
theorem owed_change (state : PieceState) (pieces : List PieceRecord) (r : PieceRecord) (change : PieceRecord → PieceRecord)
    (tags : (pieces.map PieceRecord.tag).Nodup) (mem : r ∈ pieces) (x : Option Nat) :
    owed state (pieces.map (fun q => if q.tag = r.tag then change q else q)) x +
        (if r.state = state ∧ r.serial = x then 1 else 0) =
      owed state pieces x + (if (change r).state = state ∧ (change r).serial = x then 1 else 0) := by
  have := countP_change (fun q => q.state == state && q.serial == x) change pieces r tags mem
  simpa [owed] using this

/-- A spoil record appended leaves the slots and the piece count (R121). -/
theorem append_slots (reason : SpoilReason) (piece : PieceNo) (serial value job dateCode : Option Nat) (st : Store) :
    (st.append reason piece serial value job dateCode).open0 = st.open0 ∧
      (st.append reason piece serial value job dateCode).open1 = st.open1 ∧
      (st.append reason piece serial value job dateCode).pc = st.pc := by
  unfold Store.append
  split <;> exact ⟨rfl, rfl, rfl⟩

/-- A slot emptied: the other stays, and so does the piece count (R128, R129). -/
theorem vacate_occupied (x : Nat) (st : Store) : (st.vacate x).occupied.Sublist st.occupied ∧ (st.vacate x).pc = st.pc := by
  unfold Store.vacate Store.occupied
  rcases h0 : st.open0 with _ | a <;> rcases h1 : st.open1 with _ | b <;> simp [holdsSerial] <;> repeat' split
  all_goals simp_all

/-- A slot emptied takes its serial out once (R128, R129). -/
theorem count_vacate (x : Nat) (st : Store) (h : some x ∈ st.openSerials) (y : Option Nat) :
    (st.vacate x).openSerials.count y + (if some x = y then 1 else 0) = st.openSerials.count y := by
  unfold Store.vacate
  simp only [Store.openSerials, Store.occupied] at *
  rcases h0 : st.open0 with _ | a <;> rcases h1 : st.open1 with _ | b <;> simp_all [holdsSerial]
  all_goals (repeat' split) <;> simp_all [List.count_cons]
  all_goals grind

/-- A commit fills a slot with the new piece count (R127). -/
theorem count_applyCommit (free postage job dateCode n : Nat) (piece : PieceNo) (st : Store) (one : st.occupied.length ≤ 1)
    (next : nextCount free st.pc = n) :
    let t := st.apply free (.commit postage piece job dateCode)
    (∀ y, t.openSerials.count y = st.openSerials.count y + (if some n = y then 1 else 0)) ∧ t.pc = n ∧
      ∀ o ∈ t.occupied, o.serial = n ∨ o ∈ st.occupied := by
  simp only [Store.apply, Store.applyCommit, Store.fill, Store.openSerials, Store.occupied, next] at *
  rcases h0 : st.open0 with _ | a <;> rcases h1 : st.open1 with _ | b <;> simp_all [List.count_cons]
  intro y
  omega

/-- The conversion writes answer for the occupied slots, and none is a write the Piece Tracker asked for (R138). -/
theorem conversionWrites_serials (st : Store) :
    closingSerials (conversionWrites st) = [] ∧ (conversionSerials (conversionWrites st)).Perm st.openSerials := by
  constructor
  · unfold conversionWrites
    repeat' split
    all_goals simp [closingSerials]
  · unfold conversionWrites Store.openSerials Store.occupied
    rcases h0 : st.open0 with _ | a <;> rcases h1 : st.open1 with _ | c <;> simp [conversionSerials]
    split <;> simp [List.Perm.swap]

/-- The records a failed slot write gives up (R134): the first in FINISHING with its serial. -/
theorem failSlotWrite_pieces (x : Nat) (s : State) (h : ∃ r ∈ s.tracker.pieces, r.state = .finishing ∧ r.serial = some x) :
    ∃ r ∈ s.tracker.pieces, r.state = .finishing ∧ r.serial = some x ∧
      (failSlotWrite x s).tracker.pieces = s.tracker.pieces.filter (fun q => q.tag != r.tag) := by
  unfold failSlotWrite
  obtain ⟨r0, m0, a0, b0⟩ := h
  have some_ : (s.tracker.pieces.find? (fun r => r.serial == some x && r.state == .finishing)).isSome := by
    rw [List.find?_isSome]
    exact ⟨r0, m0, by simp [a0, b0]⟩
  obtain ⟨r, hr⟩ := Option.isSome_iff_exists.mp some_
  have holds := List.find?_some hr
  simp only [Bool.and_eq_true, beq_iff_eq] at holds
  rw [show s.serial? x .finishing = some r from hr]
  exact ⟨r, List.mem_of_find?_eq_some hr, holds.2, holds.1, by simp [missPiece, retireReported]⟩

end Sys2Proof.Machine
end

