-- ==== Sys2Proof/WellFormed.lean ====
section
/-! DEFINITION. Which operands make a command the row it is named for. The meanings read a frame by its content (log 5), so a
command that fails a check still has a meaning; the checks say when the row's name is the right one. -/

namespace Sys2Proof

open Sys2Proof.Machine

/-- Why a command is not the row it is named for. -/
inductive IllFormed where
  /-- The hop count is 0 or above 32, so the frame is a BAD_FRAME (R3). -/
  | hopCount
  /-- The body is over 40 octets, so the frame is a BAD_FRAME (R3). -/
  | bodyLength
  /-- The kind is one of the ten, so the frame is not an UNKNOWN_KIND_FRAME (R16). -/
  | knownKind
  /-- The released-by octet is not 0, so the notice is not an original (R19). -/
  | notOriginal
  /-- The released-by octet is 0, so the notice is not a release (R19). -/
  | notReleased
  /-- The octets pass R3, so the frame is not a BAD_FRAME. -/
  | goodFrame
  /-- The completed message passes R148, so it is not discarded. -/
  | goodMessage
  deriving DecidableEq, Repr

/-- The tests of R3 that a frame row's operands can fail. -/
def LineFrame.check (f : LineFrame) : Option IllFormed :=
  if f.hop.toNat = 0 ∨ 32 < f.hop.toNat then some .hopCount
  else if 40 < f.body.length then some .bodyLength
  else none

/-- The checks of a command, the first that fails. -/
def Instr.check : Instr → Option IllFormed
  | .badFrame octets => if badOctets octets then none else some .goodFrame
  | .unknownKindFrame kind f => if (kindOf kind).isSome then some .knownKind else f.check
  | .pieceNotice f => if octetAt f.body 4 ≠ 0 then some .notOriginal else f.check
  | .releasedNotice f => if octetAt f.body 4 = 0 then some .notReleased else f.check
  | .measureReport f | .addressReport f | .jobOpen f | .jobClose f | .rateSwitch f | .feedHold f | .feedResume f
  | .frankReport f | .verifyReport f => f.check
  | .imprintMessageDiscarded (.completed octets) => if (readEngine octets).isSome then some .goodMessage else none
  | .imprintMessageDiscarded (.abandoned _) | .imprintMessageDiscarded (.symbol _) => none
  | .powerUp | .resetPin | .resetRelaySettled | .frameAbandoned _ | .forwardFrameSent | .ownFrameSent | .joinSwitchStart
  | .joinSwitchComplete | .leaveSwitchStart | .leaveSwitchComplete | .loopLost | .loopReturn _ | .encoderPulseForward
  | .encoderPulseReverse | .cutoff _ | .commitCheckpoint _ | .printCheckpoint _ | .resultDeadline _ | .ratingStart | .ratingResult
  | .commitWriteComplete | .closeWriteComplete | .spoilSlotWriteComplete | .spoilVerdictWriteComplete
  | .spoilUnmatchedWriteComplete | .creditWriteComplete | .drainWriteComplete | .storeWriteFailed | .startupReadComplete _
  | .imprintDone _ | .imprintFailed _ _ | .imprintMessageSent | .configure _ | .loadBankBlock _ _ _ | .commitBank _ | .join
  | .leave | .quiesce _ | .resume | .headReset | .readFunds | .readFundsNext | .readPiece _ | .readBankState | .readEvents
  | .clearEvents | .readSpoilOldest | .readLineCounts | .readLastFault | .credit _ | .drainSpoil _ | .unknownCommand _
  | .shortTransfer _ | .idleReceived _ | .powerLoss => none

/-- A command whose operands make it the row it is named for. -/
def Instr.wellFormed (i : Instr) : Bool :=
  i.check.isNone

end Sys2Proof
end

