-- ==== Sys2Proof/Tests/Slice0.lean ====
section
/-! SUPPORT. The model's own tests: the well-formedness checks, results worked out in the manual, and for every statement with
hypotheses a state and operands that meet all of them. -/

namespace Sys2Proof.Tests

open Sys2Proof Sys2Proof.Machine

/-! ## Well-formedness: one command refused by each check, and one accepted -/

/-- A line frame from station 3 with 9 hops left. -/
def sent (body : List Byte) : LineFrame :=
  { origin := 3, hop := 9, body := body }

theorem test_hopCount_refused : (Instr.jobClose { sent [3] with hop := 0 }).check = some .hopCount := by decide
theorem test_hopCount_above_refused : (Instr.jobClose { sent [3] with hop := 33 }).check = some .hopCount := by decide
theorem test_bodyLength_refused : (Instr.jobClose (sent (List.replicate 41 0))).check = some .bodyLength := by decide
theorem test_knownKind_refused : (Instr.unknownKindFrame 0x22 (sent [3])).check = some .knownKind := by decide
theorem test_notOriginal_refused : (Instr.pieceNotice (sent [0, 1, 3, 0, 3, 0])).check = some .notOriginal := by decide
theorem test_notReleased_refused : (Instr.releasedNotice (sent [0, 1, 3, 0, 0, 0])).check = some .notReleased := by decide

/-- A JOB CLOSE of job 3 from station 3, complete with its check. -/
def closeOctets : List Byte :=
  (lineFrame 0x22 (sent [3])).octets

/-- An IMPRINT DONE of serial 7, complete with its check. -/
def doneOctets : List Byte :=
  [0x61, 0, 0, 0, 7] ++ registerOctets (lineCheck [0x61, 0, 0, 0, 7])

theorem test_goodFrame_refused : (Instr.badFrame closeOctets).check = some .goodFrame := by decide +kernel
theorem test_goodMessage_refused :
    (Instr.imprintMessageDiscarded (.completed doneOctets)).check = some .goodMessage := by decide +kernel
theorem test_wellFormed_accepted :
    (Instr.jobClose (sent [3])).wellFormed = true ∧ (Instr.pieceNotice (sent [0, 1, 3, 0, 0, 0])).wellFormed = true ∧
      (Instr.badFrame [0x22]).wellFormed = true ∧ (Instr.unknownKindFrame 0x77 (sent [])).wellFormed = true := by
  decide +kernel

/-! ## States -/

/-- A configuration record in range: station 7, take limit 5, hold level 2, resume level 0. -/
def conf : Configuration :=
  { station := 7, distance := 20, cutoffLead := 12, commitLead := 6, resultWindow := 6, takeLimit := 5, holdLevel := 2,
    resumeLevel := 0, resolution := 10, seed := 1234, takeFloor := 2000, warnLevel := 6000 }

/-- The bank header of section 6.9. -/
def header : BankHeader :=
  { generation := 42, valueCeiling := 50000000, settleMargin := 5, divisor := 500, defaultZone := 2, letterMax := ⟨245, 165, 6⟩,
    largeLetterMax := ⟨380, 305, 20⟩, minLength := 140, minHeight := 90, aspectLow := 13, aspectHigh := 25, serviceLimit := 12,
    stepLimit := 15, zoneCount := 3 }

/-- Service class 3 of section 6.9. -/
def class3 : ServiceEntry :=
  { present := true, acceptsLetter := true, acceptsLargeLetter := true, acceptsParcel := false, zoned := false, minLevel := 0,
    maxDiscountLevel := 3, firstStep := 0, stepCount := 3, minCharge := 500, nonMachinable := 400, thicknessThreshold := 0,
    thicknessSurcharge := 0, perMille0 := 0, perMille1 := 40, perMille2 := 75, perMille3 := 110 }

/-- A service class made zoned and a parcel service, the minimum level 1. -/
def class1 : ServiceEntry :=
  { class3 with acceptsParcel := true, zoned := true, minLevel := 1 }

/-- A bank with the header, the classes 1 and 3, their steps and the zone map of section 6.9. -/
def bank : Bank :=
  { header := header
    services := [absentService, class1, absentService, class3]
    steps := [⟨200, .fine, 850, 0⟩, ⟨500, .fine, 1300, 0⟩, ⟨99, .coarse, 2100, 5⟩]
    zones := [⟨1, [4, 0, 0, 0, 0, 0, 0, 0], 3⟩, ⟨2, [4, 1, 0, 0, 0, 0, 0, 0], 4⟩, ⟨3, [4, 1, 7, 0, 0, 0, 0, 0], 5⟩] }

/-- A slot with the bank. -/
def slot (state : BankState) (bound : Nat) : BankSlot :=
  { state := state, content := some bank, generation := 42, bound := bound }

/-- STANDBY with an open store of 60 000 vu, configured, slot 0 ACTIVE. -/
def standby : State :=
  { State.reset with
    mode := .standby
    rates := { State.reset.rates with slot0 := slot .active 0 }
    store := { Store.fresh with dr := 60000, ct := 60000 }
    funds := { State.reset.funds with startup := .inUse }
    port := { State.reset.port with config := some conf } }

/-- The parameters of job 3: class 3, level 0, ceiling 999 dg, zone 0, date code 5 412. -/
def params : JobParams :=
  { defaultClass := 3, defaultLevel := 0, ceilingWeight := 999, defaultZone := 0, dateCode := 5412 }

/-- RUNNING in the ring, job 3 OPEN, no piece. -/
def running : State :=
  { standby with
    mode := .running
    loop := { LoopPort.initial with relay := .through, attach := .attached }
    intake := { standby.intake with jobs := [⟨3, params, true⟩] } }

/-- A record of job 3 bound to slot 0, taken at position 0. -/
def record (tag : Nat) (piece : PieceNo) (state : PieceState) : PieceRecord :=
  { tag := tag, piece := piece, job := 3, reference := 0, binding := ⟨.zero, 42⟩, measure := none, address := none,
    rating := none, serial := none, state := state, flags := ConditionFlags.none }

/-- A rating result of 1 210 vu (section 6.9). -/
def result : RatingResult :=
  { postage := 1210, shape := .letter, zone := 0, stepIndex := 1, base := 1300, surcharges := 0, discount := 97 }

/-- RUNNING with these records, the position at `position`. -/
def holding (position : Position) (pieces : List PieceRecord) : State :=
  { running with
    tracker := { position := position, pieces := pieces, lastFault := none, nextTag := 9 }
    rates := { running.rates with slot0 := slot .active pieces.length } }

/-- A record in COMMITTING with its postage, and its COMMIT. -/
def committing : PieceRecord :=
  { record 0 1 .committing with rating := some result }

/-- The COMMIT of `committing`. -/
def itsCommit : StoreWrite :=
  .commit 1210 1 3 5412

/-- RUNNING with a piece in COMMITTING, one RATED, one in RATING, a passing piece, a spoil record and a franked piece. -/
def working : State :=
  let s := holding 10 [committing, { record 1 2 .rated with rating := some result }, record 2 3 .rating]
  { s with
    intake := { s.intake with passing := [⟨4, 3, 5⟩] }
    engine := some { tag := 2, inputs := ratingInputs s (record 2 3 .rating) }
    store := { s.store with spoils := [⟨1, .notSeen, 9, some 1, some 500, some 3, none⟩], sequence := 1 }
    funds := { s.funds with pledged := 2420, writes := [itsCommit] }
    verify := { recent := [⟨9, 1, 500, 3, .spoiled, none⟩], unmatched := [] }
    port := { s.port with events := [.pieceMissed], lastReported := [.pieceMissed] }
    pending := [.encoderPulseForward] }

/-- RUNNING in the ring with this write queue and these records, the position at `position`. -/
def writing (writes : List StoreWrite) (pieces : List PieceRecord) (position : Position := 10) : State :=
  { holding position pieces with funds := { running.funds with writes := writes, pledged := 1210 } }

/-! ## Results worked out in the manual -/

/-- The check code and the frame check of the nine octets 31H to 39H are the published check values of their generators. -/
theorem test_checks :
    lineCheck [0x31, 0x32, 0x33, 0x34, 0x35, 0x36, 0x37, 0x38, 0x39] = 0xAEE7 ∧
      checkCode 65535 [0x31, 0x32, 0x33, 0x34, 0x35, 0x36, 0x37, 0x38, 0x39] = 0x29B1 := by decide +kernel

/-- The inputs of the first case of section 6.9. -/
def firstCase : RatingInputs :=
  ratingInputs running { record 0 5120 .ready with
    measure := some ⟨213, .unsettled, 240, 120, 6, true⟩, address := some ⟨3, 2, [1, 2, 3, 4, 5]⟩ }

/-- The first case of section 6.9: 1 210 vu, with WEIGHT_MARGIN. -/
theorem test_rating_firstCase :
    rate 10 firstCase = .postage result { ConditionFlags.none with weightMargin := true } := by decide +kernel

/-- The table of section 6.10: a raw charge of 1 203 vu at the four resolutions. -/
theorem test_rounding :
    [1, 5, 10, 50].map (fun r => postageOf r 500 1203) = [1203, 1205, 1210, 1250] := by decide

/-- The dimensional weight of 300 by 200 by 150 mm at the divisor 500 (section 6.9). -/
theorem test_dimensionalWeight : dimensionalWeight 500 ⟨300, 200, 150⟩ = 18000 := by decide

/-- The first 20 octets of the indicium of section 8.9. -/
theorem test_indicium :
    indiciumHead 1210 5412 6 88042 1242060 42 .letter 3 5120 =
      [0x00, 0x00, 0x04, 0xBA, 0x15, 0x24, 0x06, 0x00, 0x01, 0x57, 0xEA, 0x00, 0x12, 0xF3, 0xCC, 0x00, 0x2A, 0x23, 0x14,
        0x00] := by decide

/-- The class octet of a LETTER, a LARGE_LETTER and a PARCEL of class 3. -/
theorem test_shapeCodes :
    ([.letter, .largeLetter, .parcel] : List Shape).map (fun x => (indiciumHead 0 0 0 0 0 0 x 3 0)[17]?) =
      [some 0x23, some 0x43, some 0x63] := by decide

/-- A piece is taken from its notice in the ring: TAKEN, bound to slot 0, the notice marked with station 7. -/
theorem test_take :
    ∃ t, exec (.pieceNotice (sent [0, 5, 3, 0, 0, 0])) running = .next t ∧ t.tracker.pieces = [record 0 5 .taken] ∧
      t.rates.slot0.bound = 1 ∧ t.loop.forward.map (fun e => e.frame.body) = [[0, 5, 3, 7, 0, 0]] ∧
      t.loop.transmitter = .sendingForward := ⟨_, rfl, by decide +kernel⟩

/-- A COMMIT completes: 1 210 vu from DR to AR, serial 1 in slot 0, the record COMMITTED, an IMPRINT REQUEST given. -/
theorem test_commit :
    ∃ t, exec .commitWriteComplete (writing [itsCommit] [committing]) = .next t ∧ t.store.dr = 58790 ∧ t.store.ar = 1210 ∧
      t.store.open0 = some ⟨1, 1, 1210, 3, 5412⟩ ∧ t.tracker.pieces.map PieceRecord.state = [.committed] ∧
      t.imprint.sendQueue.length = 2 ∧ t.funds.pledged = 0 := ⟨_, rfl, by decide +kernel⟩

/-- The retirement of the last piece in QUIESCING makes the head QUIET. -/
theorem test_quiet :
    (retireReported (record 0 1 .taken) .ratingLate 0 0 { holding 0 [record 0 1 .taken] with mode := .quiescing }).mode =
      .quiet := by decide +kernel

/-- An event pending and not yet read survives CLEAR_EVENTS. -/
theorem test_clearEvents :
    ∃ t, exec .clearEvents { working with port := { working.port with events := [.pieceMissed, .quietReached] } } = .next t ∧
      t.port.events = [.quietReached] := ⟨_, rfl, by decide +kernel⟩

/-! ## The statements about every state have states to speak of -/

theorem test_witness_QueueOnlyTakenFrom : State.reset.pending = [] ∧ ∃ t, exec .join State.reset = .next t := ⟨rfl, _, rfl⟩

/-- A step of `working` answers a next state. -/
theorem test_working_steps : ∃ t, step working = .next t ∧ t.tracker.position = 11 := ⟨_, rfl, by decide⟩

theorem test_witness_BoundsKept : working.Bounded := by
  unfold State.Bounded LoopPort.Bounded Intake.Bounded Store.Bounded State.UnitsBounded; decide +kernel

/-- The job table with jobs 1 to 4, the closing order given. -/
def fullJobs (closing : List Nat) (s : State) : State :=
  { s with intake := { s.intake with
      jobs := [1, 2, 3, 4].map (fun n => ⟨n, params, !closing.contains n⟩), closing := closing } }

/-- Two CLOSED jobs among four, in the order of their closing, and the first of them opened again. -/
theorem test_witness_BoundsKept_closing :
    (fullJobs [3, 2] running).intake.ClosingSound ∧
      ∃ t, exec (.jobOpen (sent [3, 3, 0, 3, 231, 0, 21, 36])) (fullJobs [3, 2] running) = .next t ∧ t.intake.closing = [2] := by
  refine ⟨⟨by decide, by decide, fun n => ?_⟩, _, rfl, by decide +kernel⟩
  simp [fullJobs]
  omega

theorem test_working_table : working.tracker.Sound := by unfold Tracker.Sound; decide +kernel

theorem test_witness_PiecesKept : working.tracker.Sound ∧ working.ListsApart ∧ working.EngineSound := by
  unfold State.EngineSound State.ListsApart Tracker.Sound; decide +kernel

theorem test_working_rates : working.rates.Sound := by
  unfold RateStore.Sound BankSlot.Sound needsActive; decide +kernel

theorem test_witness_BindingsKept : working.BindingsCounted := by
  refine ⟨test_working_table, test_working_rates, ?_, by decide +kernel⟩
  rintro (_ | _) <;> decide +kernel

theorem test_witness_AccountKept : working.FundsBalanced := by
  unfold State.FundsBalanced State.CommitsMatched Tracker.Sound; decide +kernel

theorem test_witness_StoreKept : working.StoreSound := by
  unfold State.StoreSound State.PlacesReserved State.SlotsReserved State.CeilingsHeld Store.SpoilsOrdered; decide +kernel

theorem test_witness_EventSetKept : working.port.Sound := by unfold Port.Sound; decide +kernel

theorem test_working_modes : working.ModesSound := by
  refine ⟨⟨rfl, rfl⟩, ?_, Or.inl rfl, ?_⟩
  · unfold LoopPort.QueuesSound; decide +kernel
  · unfold State.ModeHolds; decide +kernel

theorem test_witness_ModesKept : working.TableBounded :=
  ⟨test_working_modes, fun c h => by cases h; decide, by decide⟩

/-- With a COMMIT at the front of the queue, every premise of StoreKept holds of `working`. -/
theorem test_witness_StoreKept_commit : working.Settled ∧ working.SerialsSound ∧ working.serialAhead := by
  refine ⟨?_, ?_, .inl (by decide)⟩
  · unfold State.Settled State.PathSound State.SlotsAnswered; decide +kernel
  · unfold State.SerialsSound; decide +kernel

/-- RUNNING with both slots occupied: serial 1 struck on the print path, serial 2 FINISHING with its CLOSE in the queue; the piece
count at its end. -/
def outstanding : State :=
  let base := { record 0 1 .committed with rating := some result, serial := some 1 }
  let s := holding 10 [base, { base with tag := 1, piece := 2, state := .finishing, serial := some 4294967295 }]
  { s with
    imprint := { s.imprint with path := [⟨1, 0, .struck⟩] }
    store := { s.store with open0 := some ⟨4294967295, 2, 1210, 3, 5412⟩, open1 := some ⟨1, 1, 1210, 3, 5412⟩, pc := 4294967295 }
    funds := { s.funds with writes := [.close 4294967295] } }

/-- Every premise of StoreKept holds of `outstanding`, where no next serial is asked for. -/
theorem test_witness_StoreKept_outstanding :
    outstanding.FundsBalanced ∧ outstanding.StoreSound ∧ outstanding.TableBounded ∧ outstanding.Settled ∧
      outstanding.SerialsSound ∧ outstanding.serialAhead := by
  refine ⟨?_, ?_, ⟨⟨⟨rfl, rfl⟩, ?_, .inl rfl, ?_⟩, fun c h => by cases h; decide, by decide⟩, ?_, ?_,
    .inr (by intros; simp [outstanding])⟩
  · unfold State.FundsBalanced State.CommitsMatched Tracker.Sound; decide +kernel
  · unfold State.StoreSound State.PlacesReserved State.SlotsReserved State.CeilingsHeld Store.SpoilsOrdered; decide +kernel
  · unfold LoopPort.QueuesSound; decide +kernel
  · unfold State.ModeHolds; decide +kernel
  · unfold State.Settled State.PathSound State.SlotsAnswered; decide +kernel
  · unfold State.SerialsSound; decide +kernel

/-- HALTED in the ring with the configuration record held, and a command that is no restart. -/
theorem test_witness_ConfigurationAndHaltedLast :
    { working with mode := .halted }.TableBounded ∧ working.port.config = some conf ∧ isRestart .resume = false ∧
      ∃ t, exec .resume { working with mode := .halted } = .next t := by
  refine ⟨⟨⟨⟨rfl, rfl⟩, test_working_modes.2.1, .inr (.inr (.inr rfl)), ?_⟩, fun c h => by cases h; decide, by decide⟩, rfl,
    rfl, _, rfl⟩
  unfold State.ModeHolds; decide +kernel

theorem test_witness_StoreChangesOnlyAtCompletions :
    isRestart .ratingStart = false ∧ isWriteComplete .ratingStart = false ∧ Event.pieceMissed ∈ working.port.events ∧
      ∃ t, exec .ratingStart working = .next t := ⟨rfl, rfl, by decide, _, rfl⟩

/-! ## Shared operations -/

/-- An own-frame queue of a length. -/
def ownFrames (n : Nat) (s : State) : State :=
  { s with loop := { s.loop with own := List.replicate n (ownFrame s .feedHold [1]), transmitter := .sendingOwn } }

theorem test_witness_FrameGiven :
    standby.loop.attach ≠ .attached ∧
      ((ownFrames 8 running).loop.attach = .attached ∧ 8 ≤ (ownFrames 8 running).loop.own.length) ∧
      ((ownFrames 7 running).loop.attach = .attached ∧ (ownFrames 7 running).loop.own.length < 8) := by decide

/-- A head with one piece and the feed-hold flag given, the own-frame queue at a length. -/
def lastPiece (feedHold : Bool) (n : Nat) : State :=
  let s := ownFrames n (holding 0 [record 0 1 .taken])
  { s with intake := { s.intake with feedHold := feedHold } }

/-- The last piece of a head in QUIESCING, with and without a FEED RESUME, with the greatest own-frame queue the clauses allow, and
of one that is not ATTACHED. -/
theorem test_witness_RetirementEffects :
    (lastPiece true 6).tracker.Sound ∧ record 0 1 .taken ∈ (lastPiece true 6).tracker.pieces ∧
      ((lastPiece true 6).loop.attach = .attached ∧ (lastPiece true 6).loop.own.length < 7 ∧
        (lastPiece true 6).port.config.isSome = true ∧
        ((lastPiece true 6).tracker.pieces.filter (fun x => x.piece != 1)).length = (lastPiece true 6).conf.resumeLevel ∧
        (lastPiece true 6).intake.feedHold = true) ∧
      ((lastPiece false 7).tracker.Sound ∧ (lastPiece false 7).loop.own.length < 8 ∧
        (lastPiece false 7).intake.feedHold ≠ true) ∧
      ({ lastPiece true 6 with mode := .quiescing }.tracker.pieces.length = 1) ∧
      { lastPiece true 6 with loop := standby.loop }.loop.attach ≠ .attached ∧
      ((slot .active 1).state ≠ .retiring ∧ 2 ≤ (slot .retiring 2).bound ∧ (slot .retiring 1).state = .retiring) := by
  unfold Tracker.Sound; decide +kernel

theorem test_witness_FrameOctetsAreGood :
    Frame.bad { kind := 0xFF, origin := 0, hop := 32, body := List.replicate 40 0xFF } = false ∧
      Frame.bad { kind := 0, origin := 0, hop := 1, body := [] } = false := by decide

theorem test_witness_ComposedFramesAreGood :
    (∀ x : MeasurePart, some (⟨65535, .failed, 1023, 1023, 255, false⟩ : MeasurePart) = some x →
      x.weight ≤ 65535 ∧ x.length ≤ 1023 ∧ x.height ≤ 1023 ∧ x.thickness ≤ 255) ∧
    (∀ x : AddressPart, some (⟨31, 3, [9, 9, 9, 9, 9, 9, 9, 9]⟩ : AddressPart) = some x →
      x.serviceClass ≤ 31 ∧ x.level ≤ 3 ∧ x.digits.length ≤ 8 ∧ ∀ d ∈ x.digits, d ≤ 9) ∧
    (FrankCause.franked ≠ FrankCause.pathBusy ∧ outcomeCode .lateCommit = 2) := by
  refine ⟨?_, ?_, by decide⟩ <;> (rintro x ⟨⟩; decide)

/-- Reports of section 2.7: a piece FRANKED, one spoiled by a late commit, one UNFRANKED by a failed close of its slot. -/
theorem test_frankBody :
    frankBody 0x1015 .franked 1210 0x01020304 = [0x10, 0x15, 1, 0, 0, 0, 4, 0xBA, 1, 2, 3, 4] ∧
      frankBody 0x1015 .lateCommit 0 7 = [0x10, 0x15, 2, 3, 0, 0, 0, 0, 0, 0, 0, 7] ∧
      frankBody 0x1015 .storeFault 0 7 = [0x10, 0x15, 3, 6, 0, 0, 0, 0, 0, 0, 0, 7] := by decide

theorem test_witness_IndiciumLayout :
    4294967295 < 4294967296 ∧ 65535 < 65536 ∧ 255 < 256 ∧ 31 < 32 ∧
      (withCheckCode 0 (indiciumHead 4294967295 65535 255 4294967295 4294967296 65535 .parcel 31 65535)).length = 22 := by
  decide +kernel

theorem test_witness_EngineMessagesAreRead :
    (List.replicate 22 (0xFF : Byte)).length = 22 ∧ octetAt [0x60] 0 ≠ 0x61 ∧ octetAt [0x60] 0 ≠ 0x62 := by decide

/-- Messages to the engine octet by octet, and an IMPRINT DONE an octet too long and one with a wrong check. -/
theorem test_engineOctets :
    (EngineMessage.imprintRequest 7 (List.replicate 22 9)).octets.take 6 = [0x51, 0, 0, 0, 7, 9] ∧
      (EngineMessage.print 0x01020304).octets.take 5 = [0x52, 1, 2, 3, 4] ∧
      (EngineMessage.cancel 7).octets.take 5 = [0x53, 0, 0, 0, 7] ∧ EngineMessage.clear.octets.take 1 = [0x54] ∧
      EngineMessage.clear.octets.drop 1 = registerOctets (lineCheck [0x54]) ∧ readEngine doneOctets = some (.done 7) ∧
      readEngine ([0x61, 0, 0, 0, 7, 0] ++ registerOctets (lineCheck [0x61, 0, 0, 0, 7, 0])) = none ∧
      readEngine (doneOctets.dropLast ++ [0]) = none := by decide +kernel

/-- The last urgent and the first routine event, and the highest cause of the two, in either order of raising. -/
theorem test_eventClasses :
    urgentLine [.bankNotReady] = true ∧ routineLine [.bankNotReady] = false ∧ urgentLine [.fundsLow] = false ∧
      routineLine [.fundsLow] = true ∧ highestCause [.fundsLow, .bankNotReady] = some .bankNotReady ∧
      highestCause [.quietReached, .attachChanged] = some .attachChanged := by decide

/-- Slots of the Rate Store with a switch point at 100 for generation 42. -/
def switching (slot0 slot1 : BankSlot) : State :=
  { running with rates := { slot0 := slot0, slot1 := slot1, switchPoint := some ⟨100, 42⟩, notReady := false } }

/-- The cases of BankForAPiece, and the numbers where they meet: the last before the switch point 100, the point, the last at or
after it; a READY slot of the generation beside an ACTIVE one with and without bindings; an ACTIVE slot of it; an ACTIVE slot of
another; no ACTIVE slot. -/
theorem test_witness_BankForAPiece :
    (32768 ≤ ((99 : PieceNo) - 100).toNat ∧ ((100 : PieceNo) - 100).toNat < 32768 ∧
      ((32867 : PieceNo) - 100).toNat < 32768 ∧ 32768 ≤ ((32868 : PieceNo) - 100).toNat) ∧
      (let s := switching { slot .active 1 with generation := 41 } (slot .ready 0)
       s.rates.Sound ∧ (s.rates.slot .one).state = .ready ∧ (s.rates.slot .one).generation = 42) ∧
      (switching { slot .active 0 with generation := 41 } (slot .ready 0)).rates.Sound ∧
      (let s := switching (slot .active 1) BankSlot.blank
       s.rates.Sound ∧ (s.rates.slot .zero).state = .active ∧ (s.rates.slot .zero).generation = 42 ∧
       (s.rates.slot .one).state ≠ .ready) ∧
      (let s := switching { slot .active 1 with generation := 41 } BankSlot.blank
       s.rates.Sound ∧ (s.rates.slot .zero).generation ≠ 42 ∧ (s.rates.slot .one).state = .empty) ∧
      State.reset.rates.Sound ∧ State.reset.rates.switchPoint = none := by
  refine ⟨by decide, ⟨?_, rfl, rfl⟩, ?_, ⟨?_, rfl, rfl, by decide⟩, ⟨?_, by decide, rfl⟩, ?_, rfl⟩ <;>
    (unfold RateStore.Sound BankSlot.Sound needsActive; decide +kernel)

/-! ## Rating -/

/-- The inputs of the first case with another class and level. -/
def classed (serviceClass level : Nat) : RatingInputs :=
  { firstCase with serviceClass := serviceClass, level := level }

theorem test_witness_ServiceClassTests :
    (classed 0 0).serviceClass = 0 ∧ (classed 13 0).bank.header.serviceLimit < 13 ∧
      12 ≤ (classed 12 0).bank.header.serviceLimit ∧ ((classed 12 0).bank.service 12).present = false ∧
      ((classed 1 0).bank.service 1).present = true ∧ 0 < ((classed 1 0).bank.service 1).minLevel ∧
      ((classed 1 1).bank.service 1).minLevel ≤ 1 := by decide +kernel

/-- Dimensions, none, and readings of each quality; shapes where their conditions meet; a shape accepted and one refused. -/
theorem test_witness_ShapeAndWeight :
    firstCase.dims = some ⟨240, 120, 6⟩ ∧ firstCase.reading = some { weight := 213, quality := .unsettled } ∧
      (ratingInputs running (record 0 1 .ready)).reading = none ∧ 1 ≤ header.divisor ∧ 65535 ≤ 65535 ∧
      shapeOf header (some ⟨139, 100, 1⟩) = .undersize ∧ shapeOf header (some ⟨90, 140, 1⟩) = .letter ∧
      shapeOf header (some ⟨246, 90, 1⟩) = .largeLetter ∧ (ratingInputs running (record 0 1 .ready)).dims = none ∧
      classFault firstCase = none ∧ shapeOf firstCase.bank.header firstCase.dims = .letter ∧
      firstCase.descriptor.acceptsLetter = true ∧ firstCase.descriptor.acceptsParcel = false ∧
      rate 10 { firstCase with dims := none } = .fault .shapeRefused := by decide +kernel

/-- A LETTER outside the aspect bounds pays the surcharge of class 3, 400 vu (section 6.9). -/
theorem test_nonMachinable :
    surchargesOf { firstCase with dims := some ⟨240, 90, 6⟩ } .letter = 400 ∧ surchargesOf firstCase .letter = 0 := by
  decide +kernel

theorem test_witness_WeightStep :
    stepFor firstCase 200 = some (0, bank.step 0) ∧ stepFor firstCase 201 = some (1, bank.step 1) ∧
      stepFor firstCase 999 = some (2, bank.step 2) ∧ stepFor firstCase 1000 = none ∧ classFault firstCase = none ∧
      acceptsShape firstCase.descriptor (shapeOf firstCase.bank.header firstCase.dims) = true ∧
      chargeableWeight firstCase (shapeOf firstCase.bank.header firstCase.dims) = 218 := by decide +kernel

/-- A zoned class with a destination: entries 0, 1 and 2 are in use and no two are alike, and entry 2 is the longest that hits
41729; a destination of 5 hits none. -/
theorem test_witness_ZoneOfAPiece :
    (classed 3 0).descriptor.zoned = false ∧ (classed 1 1).descriptor.zoned = true ∧
      (∀ k < 3, ∀ l < 3, (bank.zone k).count = (bank.zone l).count → k = l) ∧
      (∀ k < 3, 1 ≤ (bank.zone k).count ∧ (bank.zone k).count ≤ 8) ∧
      (bank.zone 2).digits.take 3 = [4, 1, 7, 2, 9].take 3 ∧ (∀ l < 3, (bank.zone l).count ≤ (bank.zone 2).count) ∧
      (∀ k < 3, (bank.zone k).digits.take (bank.zone k).count ≠ [5].take (bank.zone k).count) := by decide +kernel

/-- The first case; its class, shape and step pass, and its charge of 1 300 less 97 rounds up to 1 210, which a value ceiling of
1 210 admits and one of 1 209 does not. -/
theorem test_witness_ChargesAndPostage :
    1 ≤ 10 ∧ (∃ r flags, rate 10 firstCase = .postage r flags) ∧ firstCase.descriptor.minCharge % 10 = 0 ∧
      classFault firstCase = none ∧ acceptsShape firstCase.descriptor (shapeOf firstCase.bank.header firstCase.dims) = true ∧
      stepFor firstCase (chargeableWeight firstCase (shapeOf firstCase.bank.header firstCase.dims)) = some (1, bank.step 1) ∧
      (1210 % 10 = 0 ∧ 1300 + 0 - 97 ≤ 1210 ∧ 1210 < 1300 + 0 - 97 + 10 ∧
        1210 = max (max 1210 firstCase.descriptor.minCharge) 10) :=
  ⟨by decide, ⟨_, _, test_rating_firstCase⟩, by decide +kernel⟩

/-- The first case under value ceilings of 1 210 and of 1 209 vu. -/
theorem test_valueOver :
    (let capped := fun (n : Nat) =>
      { firstCase with bank := { firstCase.bank with header := { firstCase.bank.header with valueCeiling := n } } }
     rate 10 (capped 1209) = .fault .valueOver ∧ rate 10 (capped 1210) ≠ .fault .valueOver) := by decide +kernel

/-! ## The store and the thresholds -/

/-- An occupied slot of serial 7. -/
def opened : OpenImprint :=
  { serial := 7, piece := 1, value := 1210, job := 3, dateCode := 5412 }

theorem test_witness_WritesOnTheStore :
    Store.fresh.pc < 4294967295 ∧ Store.fresh.open0 = none ∧ { Store.fresh with open0 := some opened }.open1 = none ∧
      holdsSerial opened.serial Store.fresh.open0 = false ∧ Store.fresh.spoils.length < 48 ∧
      Store.fresh.sequence < 4294967295 ∧ 4294967295 ≤ { Store.fresh with sequence := 4294967295 }.sequence := by decide

/-- RUNNING with these free funds and AT_FUNDS_LOW held. -/
def funded (dr : Nat) : State :=
  { running with store := { running.store with dr := dr }, intake := { running.intake with quiesce := .atFundsLow } }

/-- Free funds at the warn level, one below it, and one below the take floor, the marks clear; a change of the spoil list. -/
theorem test_witness_ThresholdsJudged :
    (∀ dr, (funded dr).port.config = some conf ∧ (funded dr).funds.lowMark = false ∧ (funded dr).funds.outMark = false ∧
      (funded dr).intake.quiesce = .atFundsLow) ∧
      ¬(funded 6000).store.dr < (funded 6000).funds.pledged + conf.warnLevel ∧
      (funded 5999).store.dr < (funded 5999).funds.pledged + conf.warnLevel ∧
      (funded 1999).store.dr < (funded 1999).funds.pledged + conf.takeFloor ∧ standby.store.spoils.length ≠ 1 :=
  ⟨fun _ => ⟨rfl, rfl, rfl, rfl⟩, by decide⟩

/-- RUNNING with a spoil waiting on its entry and one piece number waiting. -/
def waiting : State :=
  { running with verify := { recent := [⟨9, 1, 500, 3, .spoilPending, some .notSeen⟩], unmatched := [4] } }

/-- A notice with one place open asks for the entry alone, which becomes SPOILING with its reason; with two, for the number too. -/
theorem test_placeNotice :
    (placeNotice { waiting with funds := { waiting.funds with writes := List.replicate 5 (.credit 5) } }).verify =
        { recent := [⟨9, 1, 500, 3, .spoiling, some .notSeen⟩], unmatched := [4] } ∧
      (placeNotice { waiting with funds := { waiting.funds with writes := List.replicate 4 (.credit 5) } }).verify =
        { recent := [⟨9, 1, 500, 3, .spoiling, some .notSeen⟩], unmatched := [] } := by decide

/-- An entry waiting; a number waiting without an entry; nothing waiting; HALTED; a queue of six. -/
theorem test_witness_WaitingSpoilsAskedAgain :
    (waiting.mode ≠ .halted ∧ waiting.funds.writes.length < 6 ∧ waiting.verify.recent.find? (fun x => x.state == .spoilPending) =
      some ⟨9, 1, 500, 3, .spoilPending, some .notSeen⟩) ∧
    (let s := { waiting with verify := { waiting.verify with recent := [] } }
     s.mode ≠ .halted ∧ s.funds.writes.length < 6 ∧ (∀ e ∈ s.verify.recent, e.state ≠ .spoilPending) ∧
       s.verify.unmatched = 4 :: []) ∧
    ((∀ e ∈ running.verify.recent, e.state ≠ .spoilPending) ∧ running.verify.unmatched = [] ∧ running.mode ≠ .halted ∧
      running.funds.writes.length < 6) ∧
    { waiting with mode := .halted }.mode = .halted ∧ 6 ≤ (writing (List.replicate 6 (.credit 5)) []).funds.writes.length := by
  decide

/-! ## Power, relay, reception -/

/-- The controller after a loss of power that broke a message to the engine off. -/
def unpowered : State :=
  { State.reset with
    powered := false
    imprint := { State.reset.imprint with sendQueue := [] }
    out := { State.reset.out with engineOut := some .broken } }

theorem test_witness_ResetsAndPowerUp :
    running.powered = true ∧ running.loop.relay = .through ∧ running.imprint.sendQueue ≠ [] ∧
      (writing [itsCommit] [committing]).funds.writes = itsCommit :: [] ∧
      unpowered.imprint.sendQueue = [] ∧ unpowered.out.engineOut = some .broken ∧ running.out.engineOut ≠ some .broken := by decide

theorem test_witness_PowerLossAndNoPower :
    running.powered = true ∧ unpowered.powered = false ∧ Instr.join ≠ Instr.powerUp := by decide

/-- A message being sent when power is lost is broken off, and ended with CUT at the power-up, as at a POWER_UP of a controller that
has power. -/
theorem test_cutAtPowerUp :
    (∃ t, exec .powerLoss running = .next t ∧ t.out.engineOut = some .broken ∧
      ∃ u, exec .powerUp t = .next u ∧ u.out.engineOut = some .cut) ∧
    (∃ t, exec .powerUp running = .next t ∧ t.out.engineOut = some .cut ∧ t.imprint.sendQueue = [.clear]) ∧
    ∃ t, exec .powerUp { unpowered with out := State.reset.out } = .next t ∧ t.out.engineOut = none :=
  ⟨⟨_, rfl, rfl, _, rfl, rfl⟩, ⟨_, rfl, rfl, rfl⟩, _, rfl, rfl⟩

/-- `running` with another Loop Port. -/
def withLoop (l : LoopPort) : State :=
  { running with loop := l }

/-- A Loop Port at each of the five switching commands. -/
theorem test_witness_RelaySwitching :
    (∀ l, (withLoop l).powered = true) ∧
      (let l := { standby.loop with attach := .joining, idleRun := 12 }
       l.attach = .joining ∧ l.switching = none ∧ 12 ≤ l.idleRun) ∧
      { standby.loop with attach := .joining, switching := some .join }.switching = some .join ∧
      (let l := { running.loop with attach := .leaving, idleRun := 12 }
       l.attach = .leaving ∧ l.switching = none ∧ l.forward = [] ∧ l.own = [] ∧ l.transmitter = .idle ∧ 12 ≤ l.idleRun) ∧
      { running.loop with switching := some .leave }.switching = some .leave ∧
      { standby.loop with switching := some .reset }.switching = some .reset ∧
      lineFrameOf (.jobClose (sent [3])) ≠ none := ⟨fun _ => rfl, by decide⟩

/-- A forwarded frame being sent, and an own frame being sent. -/
theorem test_witness_FramesSent :
    (let s := withLoop { running.loop with transmitter := .sendingForward, forward := [⟨lineFrame 0x22 (sent [3]), false⟩] }
     s.powered = true ∧ s.loop.relay = .through ∧ s.loop.switching = none ∧ s.loop.transmitter = .sendingForward ∧
       s.loop.forward = ⟨lineFrame 0x22 (sent [3]), false⟩ :: []) ∧
    (ownFrames 1 running).powered = true ∧ (ownFrames 1 running).loop.relay = .through ∧
      (ownFrames 1 running).loop.switching = none ∧ (ownFrames 1 running).loop.transmitter = .sendingOwn ∧
      (ownFrames 1 running).loop.own = ownFrame running .feedHold [1] :: [] := by decide

/-- A listening Loop Port with any receiver; buffers of 45 and of 46 octets, a bad one and a good one; a loop lost and not lost. -/
theorem test_witness_SymbolsReceived :
    (∀ r lost, let s := withLoop { running.loop with receiver := r, lost := lost }
      s.powered = true ∧ s.loop.switching = none ∧ s.loop.badFrames ≤ 65535 ∧ s.loop.receiver = r ∧ s.loop.lost = lost) ∧
      (List.replicate 45 (0 : Byte)).length < 46 ∧ 46 ≤ (List.replicate 46 (0 : Byte)).length ∧ badOctets [] = true ∧
      badOctets closeOctets = false :=
  ⟨fun _ _ => ⟨rfl, rfl, Nat.zero_le _, rfl, rfl⟩, by decide +kernel⟩

/-- A JOB CLOSE from a station with some hops left. -/
def closing (origin hop : Byte) : Instr :=
  .jobClose { origin := origin, hop := hop, body := [3] }

/-- Frames that each of the first tests stops: bad, own, with one hop left, without a place; and the beginning of a frame. -/
theorem test_witness_FirstTestsOfAFrame :
    (∀ r, (withLoop { running.loop with receiver := r }).powered = true ∧
      (withLoop { running.loop with receiver := r }).loop.switching = none ∧
      (withLoop { running.loop with receiver := r }).loop.receiver = r) ∧
    running.loop.badFrames ≤ 65535 ∧ badOctets [0x22] = true ∧ [0x22].isPrefixOf closeOctets = true ∧
    (∀ origin hop, lineFrameOf (closing origin hop) = some ⟨0x22, origin, hop, [3]⟩) ∧
    Frame.bad ⟨0x22, 3, 33, [3]⟩ = true ∧
    (Frame.bad ⟨0x22, 7, 32, [3]⟩ = false ∧ running.isOwn (7 : Byte).toNat = true) ∧
    (Frame.bad ⟨0x22, 3, 1, [3]⟩ = false ∧ running.isOwn (3 : Byte).toNat = false ∧ (1 : Byte).toNat = 1) ∧
    (let s := withLoop { running.loop with
       forward := List.replicate 4 ⟨lineFrame 0x22 (sent [3]), false⟩, transmitter := .sendingForward }
     Frame.bad ⟨0x22, 3, 2, [3]⟩ = false ∧ s.isOwn (3 : Byte).toNat = false ∧ (2 : Byte).toNat ≠ 1 ∧ s.inRing = true ∧
       4 ≤ s.loop.forward.length) :=
  ⟨fun _ => ⟨rfl, rfl, rfl⟩, by decide, by decide, by decide +kernel, fun _ _ => rfl, by decide +kernel⟩

/-- The octets of a frame, complete with their check. -/
def framed (head : List Byte) : List Byte :=
  head ++ registerOctets (lineCheck head)

/-- Octets on either side of each test of R3: the number of octets, the body length, the hop count, the check. -/
theorem test_badOctets :
    ([closeOctets, framed ([0x77, 3, 32, 40] ++ List.replicate 40 0), framed [0x77, 3, 1, 0]].map badOctets =
      [false, false, false]) ∧
    ([framed [0x77, 3, 1], framed ([0x77, 3, 32, 41] ++ List.replicate 41 0), framed [0x22, 3, 9, 2, 3], framed [0x22, 3, 9, 0, 3],
      framed [0x22, 3, 0, 1, 3], framed [0x22, 3, 33, 1, 3]].map badOctets = [true, true, true, true, true, true]) ∧
    ([closeOctets.dropLast ++ [0], closeOctets.set 5 0, closeOctets.set 4 4].map badOctets = [true, true, true]) := by
  decide +kernel

/-- A JOB CLOSE with its last octet changed is counted, and the job stays OPEN. -/
theorem test_wrongCheck :
    ∃ t, exec (.badFrame (closeOctets.dropLast ++ [0])) running = .next t ∧
      t = withLoop { running.loop with badFrames := 1 } := ⟨_, rfl, by decide +kernel⟩

/-- An unknown kind, a forwarded-only kind and a malformed frame, each admitted in the ring and aside. -/
theorem test_witness_FramesForwarded :
    (running.Admits (lineFrame 0x77 (sent [3])) ∧ standby.Admits (lineFrame 0x77 (sent [3])) ∧
      (lineFrame 0x77 (sent [3])).reading = .unknownKind) ∧
    (running.Admits (lineFrame (kindCode .feedHold) (sent [3])) ∧
      (lineFrame (kindCode .feedHold) (sent [3])).reading = .good .forwardedOnly) ∧
    (running.Admits (lineFrame (kindCode .feedHold) (sent [9])) ∧
      (lineFrame (kindCode .feedHold) (sent [9])).reading = .malformed) ∧ running.loop.receiver = .outside := by
  unfold State.Admits; decide +kernel

/-- Good frames handed to their blocks, heard outside a frame, change the forward queue and the transmitter of the Loop Port, and
no more of it. -/
theorem test_handedFrames :
    ∀ c ∈ [Instr.jobClose (sent [3]), .jobOpen (sent [9, 3, 0, 3, 231, 0, 21, 36]), .rateSwitch (sent [0, 100, 0, 42]),
        .addressReport (sent [0, 5, 3, 1, 0]), .verifyReport (sent [0, 9, 7, 4]), .pieceNotice (sent [0, 5, 9, 0, 0, 0])],
      ∃ f, lineFrameOf c = some f ∧ running.Admits f ∧ running.loop.receiver = .outside ∧
        ∃ t, exec c running = .next t ∧ t.loop = { running.loop with
          forward := [{ frame := { f with hop := 8 }, held := false }], transmitter := .sendingForward } := by
  intro c hc
  simp only [List.mem_cons, List.not_mem_nil, or_false] at hc
  rcases hc with rfl | rfl | rfl | rfl | rfl | rfl <;>
    exact ⟨_, rfl, by unfold State.Admits; decide +kernel, rfl, _, rfl, by decide +kernel⟩

/-- Every kind with a body that meets the tests of its kind at the ends of their ranges, and bodies that fail one of them. -/
theorem test_witness_FramesForwarded_bodies :
    let reads := fun (kind : Byte) (bodies : List (List Byte)) =>
      bodies.map (fun b => decide (({ kind := kind, origin := 30, hop := 1, body := b } : Frame).reading = .malformed))
    let part := [255, 255, 3, 3, 255, 3, 255, 255, 0]
    reads 0x11 [[0, 5, 255, 30, 0, 0], [0, 5, 3, 0, 30, 3] ++ part ++ [31, 3, 1, 0x9F], [0, 5, 3, 0, 30, 2, 31, 3, 8, 9, 9, 9, 9]] =
      [false, false, false] ∧
    reads 0x11 [[0, 5, 0, 0, 0, 0], [0, 5, 3, 31, 0, 0], [0, 5, 3, 0, 29, 0], [0, 5, 3, 0, 0, 1] ++ part, [0, 5, 3, 0, 30, 4],
      [0, 5, 3, 0, 30, 2, 31, 3, 1, 0x90]] = [true, true, true, true, true, true] ∧
    reads 0x12 [[0, 5] ++ part, [0, 5] ++ part ++ [0], [0, 5, 0, 0, 4, 0, 0, 0, 0, 0, 0]] = [false, true, true] ∧
    reads 0x13 [[0, 5, 31, 3, 8, 0x99, 0x99, 0x99, 0x99], [0, 5, 31, 3, 9, 0x99, 0x99, 0x99, 0x99, 0x9F], [0, 5, 31, 3, 1, 0xAF]] =
      [false, true, true] ∧
    reads 0x21 [[255, 31, 3, 255, 255, 15, 0, 0], [255, 31, 3, 255, 255, 16, 0, 0]] = [false, true] ∧
    reads 0x22 [[255], [0]] = [false, true] ∧ reads 0x23 [[0, 5, 0, 42], [0, 5, 0]] = [false, true] ∧
    reads 0x31 [[8], [9]] = [false, true] ∧ reads 0x32 [[8], [9]] = [false, true] ∧
    reads 0x33 [[0, 5, 1, 0, 0, 0, 0, 1, 0, 0, 0, 1], [0, 5, 2, 3, 0, 0, 0, 0, 0, 0, 0, 1], [0, 5, 3, 6, 0, 0, 0, 0, 0, 0, 0, 0]] =
      [false, false, false] ∧
    reads 0x33 [[0, 5, 1, 0, 0, 0, 0, 0, 0, 0, 0, 1], [0, 5, 3, 5, 0, 0, 0, 0, 0, 0, 0, 1]] = [true, true] ∧
    reads 0x41 [[0, 5, 30, 4], [0, 5, 31, 4]] = [false, true] ∧
    (0x77 : Byte) ∉ ([0x11, 0x12, 0x13, 0x21, 0x22, 0x23, 0x31, 0x32, 0x33, 0x41] : List Byte) ∧
    ({ kind := 0x22, origin := 31, hop := 1, body := [3] } : Frame).reading = .malformed := by
  decide +kernel

/-! ## Line messages -/

/-- The nine octets of a measure block of 213 dg, SETTLED, 240 by 120 by 6 mm. -/
def block : List Byte :=
  [0, 213, 1, 0, 240, 0, 120, 6, 1]

/-- What `block` says. -/
def measured : MeasurePart :=
  { weight := 213, quality := .settled, length := 240, height := 120, thickness := 6, dimsValid := true }

theorem test_witness_MeasureReportHandled :
    (holding 0 [record 0 5 .taken, record 1 6 .ready, record 2 7 .rated]).Admits
      (lineFrame (kindCode .measureReport) (sent ([0, 5] ++ block))) ∧
    (lineFrame (kindCode .measureReport) (sent ([0, 5] ++ block))).reading = .good (.measureReport 5 measured) ∧
    (holding 0 [record 0 5 .taken, record 1 6 .ready, record 2 7 .rated]).tracker.Sound ∧
    { record 0 5 .taken with measure := some measured }.measure ≠ none := by
  unfold State.Admits Tracker.Sound; decide +kernel

theorem test_witness_AddressReportHandled :
    (holding 0 [record 0 5 .taken, record 1 6 .ready, record 2 7 .rated]).Admits
      (lineFrame (kindCode .addressReport) (sent [0, 5, 3, 1, 0])) ∧
    (lineFrame (kindCode .addressReport) (sent [0, 5, 3, 1, 0])).reading = .good (.addressReport 5 ⟨3, 1, []⟩) ∧
    (lineFrame (kindCode .addressReport) (sent [0, 5, 3, 1, 3, 0x41, 0x7F])).reading =
      .good (.addressReport 5 ⟨3, 1, [4, 1, 7]⟩) ∧
    (holding 0 [record 0 5 .taken, record 1 6 .ready, record 2 7 .rated]).tracker.Sound := by
  unfold State.Admits Tracker.Sound; decide +kernel

/-- The octets of a JOB OPEN with the parameters of `params`. -/
def opening (n : Byte) : LineFrame :=
  sent [n, 3, 0, 3, 231, 0, 21, 36]

/-- A job in the table without and with pieces, and a new one with a free place. -/
theorem test_witness_JobOpenHandled :
    (running.Admits (lineFrame (kindCode .jobOpen) (opening 3)) ∧
      (lineFrame (kindCode .jobOpen) (opening 3)).reading = .good (.jobOpen 3 params) ∧
      (∃ j ∈ running.intake.jobs, j.number = 3) ∧ ¬∃ r ∈ running.tracker.pieces, r.job = 3) ∧
    (let s := holding 0 [record 0 5 .taken]
     s.Admits (lineFrame (kindCode .jobOpen) (opening 3)) ∧ (∃ j ∈ s.intake.jobs, j.number = 3) ∧
       ∃ r ∈ s.tracker.pieces, r.job = 3) ∧
    (standby.Admits (lineFrame (kindCode .jobOpen) (opening 3)) ∧ (¬∃ j ∈ standby.intake.jobs, j.number = 3) ∧
      standby.intake.jobs.length < 4) := by
  unfold State.Admits; decide +kernel

/-- A new job with a full table whose oldest CLOSED job has a piece, without and with another CLOSED job. -/
theorem test_witness_JobOpenHandled_full :
    (lineFrame (kindCode .jobOpen) (opening 5)).reading = .good (.jobOpen 5 params) ∧
    (let s := fullJobs [3] (holding 0 [record 0 5 .taken])
     s.Admits (lineFrame (kindCode .jobOpen) (opening 5)) ∧ (¬∃ j ∈ s.intake.jobs, j.number = 5) ∧ 4 ≤ s.intake.jobs.length ∧
       ∀ k ∈ s.intake.closing, ∃ r ∈ s.tracker.pieces, r.job = k) ∧
    (let s := fullJobs [3, 2] (holding 0 [record 0 5 .taken])
     s.Admits (lineFrame (kindCode .jobOpen) (opening 5)) ∧ (¬∃ j ∈ s.intake.jobs, j.number = 5) ∧ 4 ≤ s.intake.jobs.length ∧
       s.intake.closing = [3] ++ 2 :: [] ∧ (∀ k ∈ [3], ∃ r ∈ s.tracker.pieces, r.job = k) ∧
       ¬∃ r ∈ s.tracker.pieces, r.job = 2) := by
  unfold State.Admits; decide +kernel

/-- `s` with AT_JOB_CLOSE of job 3 held. -/
def awaiting (s : State) : State :=
  { s with intake := { s.intake with quiesce := .atJobClose 3 } }

theorem test_witness_JobCloseHandled :
    (lineFrame (kindCode .jobClose) (sent [3])).reading = .good (.jobClose 3) ∧
    (running.Admits (lineFrame (kindCode .jobClose) (sent [3])) ∧ running.jobIsOpen 3 = true ∧
      running.intake.quiesce ≠ .atJobClose 3) ∧
    (standby.Admits (lineFrame (kindCode .jobClose) (sent [3])) ∧ standby.jobIsOpen 3 = false) ∧
    ((awaiting running).Admits (lineFrame (kindCode .jobClose) (sent [3])) ∧
      (awaiting running).intake.quiesce = .atJobClose 3 ∧ (awaiting running).tracker.pieces = []) ∧
    ((awaiting working).Admits (lineFrame (kindCode .jobClose) (sent [3])) ∧
      (awaiting working).intake.quiesce = .atJobClose 3 ∧ (awaiting working).tracker.pieces ≠ []) := by
  unfold State.Admits; decide +kernel

theorem test_witness_RateSwitchRecorded :
    running.Admits (lineFrame (kindCode .rateSwitch) (sent [0, 100, 0, 42])) ∧
    (lineFrame (kindCode .rateSwitch) (sent [0, 100, 0, 42])).reading = .good (.rateSwitch ⟨100, 42⟩) := by
  unfold State.Admits; decide +kernel

/-- A recent franked list with an older and a newer entry of piece 9. -/
def judging (state : VerifyState) : State :=
  { running with verify := { running.verify with recent := [⟨9, 1, 500, 3, .good, none⟩, ⟨9, 2, 500, 3, state, none⟩] } }

/-- A verdict for another head, on the newer of two entries, PENDING and not, on none, and with the head HALTED. -/
theorem test_witness_VerifyReportHandled :
    (lineFrame (kindCode .verifyReport) (sent [0, 9, 7, 4])).reading = .good (.verifyReport 9 7 .notSeen) ∧
    (lineFrame (kindCode .verifyReport) (sent [0, 8, 7, 2])).reading = .good (.verifyReport 8 7 .unreadable) ∧
    (∀ state, (judging state).isOwn 7 = true ∧ (judging state).isOwn 5 = false ∧
      (judging state).verify.recent = [⟨9, 1, 500, 3, .good, none⟩] ++ ⟨9, 2, 500, 3, state, none⟩ :: []) ∧
    (judging .pending).Admits (lineFrame (kindCode .verifyReport) (sent [0, 9, 7, 4])) ∧
    (∀ y ∈ (judging .pending).verify.recent, y.piece ≠ 8) ∧
    ((judging .pending).mode ≠ .halted ∧ (judging .pending).funds.writes.length < 6) ∧
    ¬{ judging .pending with mode := .halted }.mode ≠ .halted := by
  refine ⟨by decide +kernel, by decide +kernel, fun _ => ⟨rfl, rfl, rfl⟩, ?_⟩
  unfold State.Admits; decide +kernel

/-- A notice of piece 5 of job 3, not taken, original or released by station 3. -/
def notice (releasedBy : Nat) : Notice :=
  { piece := 5, job := 3, takeStation := 0, releasedBy := releasedBy, measure := none, address := none }

theorem test_readNotice :
    (lineFrame (kindCode .pieceNotice) (sent [0, 5, 3, 0, 0, 0])).reading = .good (.notice (notice 0)) ∧
      (lineFrame (kindCode .pieceNotice) (sent [0, 5, 3, 0, 3, 0])).reading = .good (.notice (notice 3)) := by
  decide +kernel

/-- The octets of `notice`. -/
def noticed (releasedBy : Byte) : LineFrame :=
  sent [0, 5, 3, 0, releasedBy, 0]

/-- A duplicate; an original in STANDBY; a release with no entry. -/
theorem test_witness_NoticeNotTaken :
    (∀ x, lineFrameOf (.pieceNotice x) = some (lineFrame 0x11 x) ∧ lineFrameOf (.releasedNotice x) = some (lineFrame 0x11 x)) ∧
    (let s := holding 0 [record 0 5 .taken]
     s.Admits (lineFrame 0x11 (noticed 0)) ∧ (∀ e ∈ s.loop.forward, e.held = false) ∧ ∃ r ∈ s.tracker.pieces, r.piece = 5) ∧
    (standby.Admits (lineFrame 0x11 (noticed 0)) ∧ (∀ e ∈ standby.loop.forward, e.held = false) ∧
      (∀ r ∈ standby.tracker.pieces, r.piece ≠ 5) ∧ (notice 0).releasedBy = 0 ∧ ¬standby.TakesOriginal (notice 0)) ∧
    (running.Admits (lineFrame 0x11 (noticed 3)) ∧ (∀ e ∈ running.loop.forward, e.held = false) ∧
      (∀ r ∈ running.tracker.pieces, r.piece ≠ 5) ∧ (notice 3).releasedBy ≠ 0 ∧
      ∀ e ∈ running.intake.passing, e.piece = 5 → ¬running.TakesRelease (notice 3) e) := by
  refine ⟨fun _ => ⟨rfl, rfl⟩, ?_, ?_, ?_⟩ <;>
    (simp only [State.Admits, State.TakesOriginal, State.TakesRelease]; decide +kernel)

/-- RUNNING with a passing-list entry of piece 5, its cutoff not reached. -/
def passing : State :=
  { running with intake := { running.intake with passing := [⟨5, 3, 0⟩] } }

/-- An original and a release that pass every other test, with no slot ACTIVE. -/
theorem test_witness_NoticeWithoutBank :
    (let s := { running with rates := State.reset.rates }
     s.Admits (lineFrame 0x11 (noticed 0)) ∧ (∀ e ∈ s.loop.forward, e.held = false) ∧
       (∀ r ∈ s.tracker.pieces, r.piece ≠ 5) ∧ (askBank 5 s).2 = none ∧ s.TakesOriginal (notice 0)) ∧
    (let s := { passing with rates := State.reset.rates }
     s.Admits (lineFrame 0x11 (noticed 3)) ∧ (∀ e ∈ s.loop.forward, e.held = false) ∧
       (∀ r ∈ s.tracker.pieces, r.piece ≠ 5) ∧ (askBank 5 s).2 = none ∧
       s.intake.passing.find? (fun x => x.piece == 5) = some ⟨5, 3, 0⟩ ∧
       s.TakesRelease (notice 3) ⟨5, 3, 0⟩) := by
  unfold State.TakesOriginal State.TakesRelease State.Admits; decide +kernel

/-- A take of an original at the hold level less one, with room for the FEED HOLD and without, and of a release. -/
theorem test_witness_NoticeTaken :
    (let s := holding 0 [record 0 4 .taken]
     s.Admits (lineFrame 0x11 (noticed 0)) ∧ (∀ e ∈ s.loop.forward, e.held = false) ∧
       (∀ r ∈ s.tracker.pieces, r.piece ≠ 5) ∧ (askBank 5 s).2 = some ⟨.zero, 42⟩ ∧ (notice 0).releasedBy = 0 ∧
       s.TakesOriginal (notice 0) ∧ s.tracker.pieces.length + 1 = s.conf.holdLevel ∧ s.inRing = true) ∧
    (let s := ownFrames 8 (holding 0 [record 0 4 .taken])
     s.Admits (lineFrame 0x11 (noticed 0)) ∧ s.TakesOriginal (notice 0) ∧ (askBank 5 s).2 = some ⟨.zero, 42⟩ ∧
       s.loop.attach = .attached ∧ 8 ≤ s.loop.own.length) ∧
    (let s := passing
     s.Admits (lineFrame 0x11 (noticed 3)) ∧ (∀ e ∈ s.loop.forward, e.held = false) ∧
       (∀ r ∈ s.tracker.pieces, r.piece ≠ 5) ∧ (askBank 5 s).2 = some ⟨.zero, 42⟩ ∧ (notice 3).releasedBy ≠ 0 ∧
       s.intake.passing.find? (fun x => x.piece == 5) = some ⟨5, 3, 0⟩ ∧ s.TakesRelease (notice 3) ⟨5, 3, 0⟩) := by
  unfold State.TakesOriginal State.TakesRelease State.Admits; decide +kernel

/-! ## The belt, the rating and the imprint -/

theorem test_witness_PulsesCounted :
    running.powered = true ∧ (16777215 : Position).toNat = 16777215 ∧ ∃ t, exec .powerUp running = .next t := ⟨rfl, rfl, _, rfl⟩

/-- Records at their cutoff: the first position that reaches it and the last that does not. -/
theorem test_witness_CutoffDefaults :
    (holding 8 [record 0 1 .taken]).tracker.Sound ∧ record 0 1 .taken ∈ (holding 8 [record 0 1 .taken]).tracker.pieces ∧
      reached 8 (running.checkpoints (record 0 1 .taken)).cutoff = true ∧
      reached 7 (running.checkpoints (record 0 1 .taken)).cutoff = false := by
  unfold Tracker.Sound; decide +kernel

/-- A position at a checkpoint, the last that reaches it and the first that does not, without and across the wrap. -/
theorem test_reached :
    (reached 0 0 = true ∧ reached 8388607 0 = true ∧ reached 8388608 0 = false ∧ reached 16777215 0 = false) ∧
      (reached 0 16777215 = true ∧ reached 8388606 16777215 = true ∧ reached 8388607 16777215 = false ∧
        reached 16777214 16777215 = false) := by decide

/-- The commit checkpoint with 4 writes queued, which admits the COMMIT, and with 5, which does not. -/
theorem test_witness_CommitCheckpointTaken :
    (let s := writing (List.replicate 4 (.credit 5)) [record 0 1 .rated] 14
     s.powered = true ∧ s.tracker.Sound ∧ record 0 1 .rated ∈ s.tracker.pieces ∧
       reached s.tracker.position (s.checkpoints (record 0 1 .rated)).commit = true ∧
       s.mode ≠ .halted ∧ s.funds.writes.length ≤ 4 ∧ s.store.open0 = none ∧ s.store.open1 = none ∧
       commitsIn s.funds.writes = 0 ∧ s.store.pc < 4294967295) ∧
    (let s := writing (List.replicate 5 (.credit 5)) [record 0 1 .rated] 14
     s.powered = true ∧ s.tracker.Sound ∧ record 0 1 .rated ∈ s.tracker.pieces ∧
       reached s.tracker.position (s.checkpoints (record 0 1 .rated)).commit = true ∧ ¬s.funds.writes.length ≤ 4) := by
  unfold Tracker.Sound; decide +kernel

/-- A record in COMMITTED of serial 7. -/
def committed : PieceRecord :=
  { record 0 1 .committed with serial := some 7, rating := some result }

/-- `committed` on the print path. -/
def printing (phase : Phase) (position : Position) : State :=
  { holding position [committed] with imprint := { running.imprint with path := [⟨7, 0, phase⟩] } }

theorem test_witness_PrintAndDeadlineTaken :
    (printing .requested 20).tracker.Sound ∧ committed ∈ (printing .requested 20).tracker.pieces ∧
      (printing .requested 20).imprint.sendQueue.length < 8 ∧ reached 20 (running.checkpoints committed).print = true ∧
      (printing .requested 20).imprint.path.find? (fun x => x.tag == committed.tag) = some ⟨7, 0, .requested⟩ ∧
      reached 26 (running.checkpoints committed).deadline = true ∧ committed.serial = some 7 ∧
      { printing .struck 26 with mode := .halted }.mode = .halted := by
  unfold Tracker.Sound; decide +kernel

/-- The engine delivering for a record in RATING, with the inputs and DR given. -/
def delivering (i : RatingInputs) (dr : Nat) : State :=
  { holding 0 [record 0 1 .rating] with
    engine := some { tag := 0, inputs := i }
    store := { Store.fresh with dr := dr, ct := dr } }

/-- An idle engine with two records READY; results for a record in RATING: a fault, a postage one vu above the free funds, a postage
equal to them; and a result for a record no longer in RATING. -/
theorem test_witness_RatingStartsAndEnds :
    (let s := holding 0 [record 0 1 .taken, record 1 2 .ready, record 2 3 .ready]
     s.powered = true ∧ s.engine = none ∧ s.tracker.Sound ∧
       s.tracker.pieces = [record 0 1 .taken] ++ record 1 2 .ready :: [record 2 3 .ready] ∧
       (∀ q ∈ [record 0 1 .taken], q.state ≠ .ready) ∧ (record 1 2 .ready).state = .ready ∧
       s.intake.jobs.find? (fun x => x.number == (record 1 2 .ready).job) = some ⟨3, params, true⟩ ∧
       (s.rates.slot (record 1 2 .ready).binding.slot).content = some bank) ∧
    (delivering (classed 0 0) 1210).tracker.Sound ∧ (delivering (classed 0 0) 1210).engine = some ⟨0, classed 0 0⟩ ∧
    rate (delivering (classed 0 0) 1210).conf.resolution (classed 0 0) = .fault .nullClass ∧
    rate (delivering firstCase 1210).conf.resolution firstCase =
      .postage result { ConditionFlags.none with weightMargin := true } ∧
    (delivering firstCase 1209).store.dr < (delivering firstCase 1209).funds.pledged + result.postage ∧
    (delivering firstCase 1210).funds.pledged + result.postage ≤ (delivering firstCase 1210).store.dr ∧
    (let s := { holding 0 [record 0 1 .taken] with engine := some { tag := 5, inputs := firstCase } }
     s.tracker.Sound ∧ ∀ r ∈ s.tracker.pieces, r.tag = 5 → r.state ≠ .rating) := by
  unfold Tracker.Sound; decide +kernel

/-- A COMMIT that completes at the last position before the print checkpoint, and at it. -/
theorem test_witness_CommitCompletes :
    (let s := writing [itsCommit] [committing] 19
     s.powered = true ∧ s.tracker.Sound ∧ s.funds.writes = itsCommit :: [] ∧ committing ∈ s.tracker.pieces ∧
       committing.piece = 1 ∧ committing.state = .committing ∧ s.store.pc < 4294967295 ∧ s.imprint.sendQueue.length < 8 ∧
       reached s.tracker.position (s.checkpoints committing).print = false) ∧
    (let s := writing [itsCommit] [committing] 20
     s.powered = true ∧ s.tracker.Sound ∧ s.funds.writes = itsCommit :: [] ∧ committing ∈ s.tracker.pieces ∧
       s.store.pc < 4294967295 ∧ s.imprint.sendQueue.length < 8 ∧
       reached s.tracker.position (s.checkpoints committing).print = true ∧ s.mode ≠ .halted) := by
  unfold Tracker.Sound; decide +kernel

/-- A record in FINISHING of serial 7. -/
def finishing : PieceRecord :=
  { committed with state := .finishing }

/-- A franked entry in a state. -/
def entry (state : VerifyState) : FrankedEntry :=
  { piece := 9, serial := 1, value := 500, job := 3, state := state, reason := none }

/-- A CLOSE and a SPOIL of a record in FINISHING; the last and a last but one write of the start-up conversion; recent franked lists
of 31 entries, of 32 that all stay, and of 32 whose second entry is the oldest removable one. -/
theorem test_witness_ClosingWritesComplete :
    (let s := writing [.close 7] [finishing]
     s.powered = true ∧ s.tracker.Sound ∧ s.funds.writes = .close 7 :: [] ∧
       s.tracker.pieces.find? (fun q => q.serial == some 7 && q.state == .finishing) = some finishing) ∧
    (let s := writing [.spoilSlot 7 .lateCommit] [finishing]
     s.tracker.Sound ∧ s.funds.writes = .spoilSlot 7 .lateCommit :: [] ∧
       s.tracker.pieces.find? (fun q => q.serial == some 7 && q.state == .finishing) = some finishing) ∧
    (let s := writing [.spoilSlot 7 .unconfirmed, .spoilSlot 8 .unconfirmed] []
     s.tracker.Sound ∧ s.funds.writes = .spoilSlot 7 .unconfirmed :: [.spoilSlot 8 .unconfirmed] ∧
       StoreWrite.spoilSlot 8 .unconfirmed ∈ [StoreWrite.spoilSlot 8 .unconfirmed]) ∧
    (let s := writing [.spoilSlot 8 .unconfirmed, .credit 5] []
     let t := { s with funds := { s.funds with startup := .converting } }
     t.tracker.Sound ∧ t.funds.writes = .spoilSlot 8 .unconfirmed :: [.credit 5] ∧ t.funds.startup = .converting ∧
       [StoreWrite.credit 5].any isConversion = false) ∧
    (List.replicate 31 (entry .good)).length < 32 ∧
    (let l := List.replicate 32 (entry .spoiling)
     l.length = 32 ∧ ∀ y ∈ l, y.state = .spoilPending ∨ y.state = .spoiling) ∧
    (let l := [entry .spoilPending] ++ entry .good :: List.replicate 30 (entry .pending)
     l.length = 32 ∧ (∀ z ∈ [entry .spoilPending], z.state = .spoilPending ∨ z.state = .spoiling) ∧
       ¬((entry .good).state = .spoilPending ∨ (entry .good).state = .spoiling)) := by
  unfold Tracker.Sound; decide +kernel

theorem test_witness_OtherWritesComplete :
    (writing [.spoilVerdict 9 1 500 3 .notSeen] []).funds.writes = .spoilVerdict 9 1 500 3 .notSeen :: [] ∧
      (writing [.spoilUnmatched 4] []).funds.writes = .spoilUnmatched 4 :: [] ∧
      (writing [.credit 5] []).funds.writes = .credit 5 :: [] ∧ (writing [.drain 1] []).funds.writes = .drain 1 :: [] := by
  decide

/-- The front CLOSE fails, and the COMMIT, the verdict spoil and the unmatched spoil behind it are failed in queue order: both pieces
are missed, the pledge is released, the entry waits again and the number is held. -/
theorem test_storeWriteFailed :
    (let s := writing [.close 7, itsCommit, .spoilVerdict 9 1 500 3 .notSeen, .spoilUnmatched 4]
        [{ finishing with tag := 1, piece := 2 }, committing]
     ∃ t, exec .storeWriteFailed { s with verify := { s.verify with recent := [entry .spoiling] } } = .next t ∧
      t.mode = .halted ∧ t.tracker.pieces = [] ∧ t.funds.pledged = 0 ∧ t.funds.writes = [] ∧
      t.verify.recent = [⟨9, 1, 500, 3, .spoilPending, some .notSeen⟩] ∧ t.verify.unmatched = [4] ∧
      t.loop.own.map (fun f => f.body.take 4) = [[0, 2, 3, 6], [0, 1, 3, 6]] ∧
      t.port.events = [.storeFault, .pieceMissed]) := ⟨_, rfl, by decide +kernel⟩

/-- A queue whose front write fails; a COMMIT with and without its record; a CLOSE and a slot SPOIL with and without a FINISHING
record; a start-up read with no slot, one and two slots occupied. -/
theorem test_witness_StoreFailureAndStartUp :
    (let s := writing [itsCommit] [committing]
     s.powered = true ∧ s.funds.writes ≠ [] ∧ s.tracker.Sound ∧ committing ∈ s.tracker.pieces ∧
       committing.piece = 1 ∧ committing.state = .committing) ∧
    (∀ r ∈ (writing [] [finishing]).tracker.pieces, r.piece = 1 → r.state ≠ .committing) ∧
    (writing [.close 7] [finishing]).tracker.pieces.find? (fun q => q.serial == some 7 && q.state == .finishing) =
      some finishing ∧
    (writing [.close 7] []).tracker.pieces.find? (fun q => q.serial == some 7 && q.state == .finishing) = none ∧
    SpoilReason.noResult ≠ .unconfirmed ∧
    (∀ st, let s := { State.reset with store := st }
      s.powered = true ∧ s.funds.startup = .reading ∧ s.store.open0 = st.open0 ∧ s.store.open1 = st.open1) ∧
    (Store.fresh.open0 = none ∧ Store.fresh.open1 = none) ∧
    (let st := { Store.fresh with open0 := some { opened with serial := 8 }, open1 := some opened }
     st.open0 = some { opened with serial := 8 } ∧ st.open1 = some opened ∧ opened.serial < 8) := by
  refine ⟨?_, by decide +kernel, by decide +kernel, by decide +kernel, by decide, fun _ => ⟨rfl, rfl, rfl, rfl⟩, by decide,
    by decide⟩
  unfold Tracker.Sound; decide +kernel

/-- An IMPRINT FAILED of serial 7, engine reason 2, complete with its check. -/
def failedOctets : List Byte :=
  [0x62, 0, 0, 0, 7, 2] ++ registerOctets (lineCheck [0x62, 0, 0, 0, 7, 2])

/-- A good message of each type, and one octet less; the last place of the buffer. -/
theorem test_witness_EngineResultsHandled_messages :
    (∀ octets ∈ [doneOctets, failedOctets],
      registerOctets (lineCheck (octets.take (octets.length - 2))) = octets.drop (octets.length - 2)) ∧
    doneOctets.length = 7 ∧ doneOctets.head? = some 0x61 ∧ failedOctets.length = 8 ∧ failedOctets.head? = some 0x62 ∧
    ¬(doneOctets.tail.length = 7 ∧ doneOctets.tail.head? = some 0x61 ∨
      doneOctets.tail.length = 8 ∧ doneOctets.tail.head? = some 0x62) ∧
    (List.replicate 28 (0 : Byte)).length < 29 ∧ 29 ≤ (List.replicate 29 (0 : Byte)).length := by
  decide +kernel

/-- An IMPRINT DONE received symbol by symbol is acted on at its CLOSE; a 30th octet makes the receiver ignore the rest. -/
theorem test_engineSymbols :
    let hearing := fun (r : Receiver) => { printing .struck 20 with imprint := { (printing .struck 20).imprint with receiver := r } }
    (∃ t, exec (.imprintMessageDiscarded (.symbol .closer)) (hearing (.receiving doneOctets)) = .next t ∧
      t.funds.writes = [.close 7] ∧ t.imprint.path = [] ∧ t.imprint.receiver = .outside) ∧
    ∃ t, exec (.imprintMessageDiscarded (.symbol (.octet 0))) (hearing (.receiving (List.replicate 29 0))) = .next t ∧
      t.imprint.receiver = .ignoring := ⟨⟨_, rfl, by decide +kernel⟩, _, rfl, by decide +kernel⟩

/-- A result for an entry in either phase, and for none. -/
theorem test_witness_EngineResultsHandled :
    (printing .struck 20).imprint.path.find? (fun x => x.serial == (7 : Word32).toNat) = some ⟨7, 0, .struck⟩ ∧
      (printing .requested 19).imprint.path.find? (fun x => x.serial == (7 : Word32).toNat) = some ⟨7, 0, .requested⟩ ∧
      (printing .struck 20).tracker.Sound ∧ committed ∈ (printing .struck 20).tracker.pieces ∧ committed.tag = 0 ∧
      committed.state = .committed ∧ (∀ e ∈ (printing .struck 20).imprint.path, e.serial ≠ (8 : Word32).toNat) ∧
      readEngine [0x61] = none ∧ running.imprint.sendQueue = .clear :: [] := by
  unfold Tracker.Sound; decide +kernel

/-! ## Service port commands -/

theorem test_witness_ConfigureJudged :
    State.reset.mode = .setup ∧ State.reset.funds.startup = .reading ∧ running.mode ≠ .setup ∧
      { State.reset with funds := { State.reset.funds with startup := .inUse } }.funds.startup = .inUse ∧
      firstBadField conf = none ∧ firstBadField { conf with resultWindow := 4194284 } = none ∧
      firstBadField { conf with resultWindow := 4194285 } = some 5 ∧ firstBadField { conf with cutoffLead := 6 } = some 4 := by
  decide

/-- A slot 0 in each state; the last index of a part and the first beyond it; a LOADING slot that passes every check of a commit
and one that fails the second. -/
theorem test_witness_BanksLoadedAndCommitted :
    (∀ state, ((switching (slot state 0) BankSlot.blank).rates.slot .zero).state = state) ∧
      slotOf 0 = some .zero ∧ slotOf 1 = some .one ∧ 1 < 2 ∧ partGood 31 (.service class3) = true ∧
      partGood 32 (.service class3) = false ∧ State.reset.port.config = none ∧ standby.port.config = some conf ∧
      commitChecks conf.resolution (slot .loading 0) = none ∧
      commitChecks conf.resolution { slot .loading 0 with content := some { bank with header := { header with
        stepLimit := 128 } } } = some (.bankLimits, none) ∧
      (standby.rates.slot SlotNo.one.other).state = .active ∧ (State.reset.rates.slot SlotNo.one.other).state ≠ .active ∧
      (slot .loading 0).state = .loading :=
  ⟨fun _ => rfl, by decide +kernel⟩

/-- The bank with one field spoiled for each of the checks 2 to 8: the code and the index reported. -/
theorem test_commitChecks :
    (let judged := fun (b : Bank) => commitChecks 10 { slot .loading 0 with content := some b }
     let headed := fun (h : BankHeader) => judged { bank with header := h }
     let served := fun (e : ServiceEntry) => judged { bank with services := [absentService, class1, absentService, e] }
     headed { header with serviceLimit := 32 } = some (.bankLimits, none) ∧
     headed { header with stepLimit := 1 } = some (.stepRange, some 1) ∧
     judged { bank with steps := [⟨200, .fine, 850, 0⟩, ⟨200, .fine, 1300, 0⟩, ⟨99, .coarse, 2100, 5⟩] } =
       some (.stepOrder, some 1) ∧
     headed { header with valueCeiling := 50000005 } = some (.bankCharge, none) ∧
     served { class3 with minCharge := 505 } = some (.bankCharge, some 3) ∧
     served { class3 with perMille3 := 1001 } = some (.perMille, some 3) ∧
     judged { bank with zones := [⟨1, [4, 0, 0, 0, 0, 0, 0, 0], 3⟩, ⟨2, [4, 1, 0, 0, 0, 0, 0, 0], 4⟩,
       ⟨1, [4, 0, 0, 0, 0, 0, 0, 0], 5⟩] } = some (.zoneDuplicate, some 2) ∧
     headed { header with defaultZone := 16 } = some (.zoneRange, none) ∧
     judged { bank with zones := [⟨1, [4, 0, 0, 0, 0, 0, 0, 0], 3⟩, ⟨2, [4, 1, 0, 0, 0, 0, 0, 0], 16⟩] } =
       some (.zoneRange, some 1)) := by decide +kernel

theorem test_witness_ModeCommands :
    standby.mode = .standby ∧ standby.loop.attach = .bypass ∧ { running with mode := .quiet }.mode = .quiet ∧
      running.loop.attach = .attached ∧ running.mode = .running ∧
      (running.job? 3).isSome = true ∧ (∀ j, running.job? 3 = some j → j.isOpen = true) ∧
      (∀ j, (fullJobs [3] running).job? 3 = some j → j.isOpen = false) ∧ 1 ≤ 255 ∧ 255 ≤ 255 ∧ 255 < 256 ∧
      ¬running.store.dr < running.funds.pledged + running.conf.warnLevel := by
  refine ⟨rfl, rfl, rfl, rfl, rfl, rfl, ?_, ?_, by decide⟩ <;> (intro j h; cases h; rfl)

/-- READ_EVENTS, an event raised after it, and CLEAR_EVENTS. -/
theorem test_witness_EventsReadAndCleared :
    running.port.lastReported = [] ∧ ∃ t, exec .readEvents running = .next t ∧
      ∃ u, exec .clearEvents (raise .quietReached t) = .next u := ⟨rfl, _, rfl, _, rfl⟩

/-- READ_LAST_FAULT gives the code of R100: 6 for OVERWEIGHT. -/
theorem test_readLastFault :
    ∃ t, exec .readLastFault { running with tracker := { running.tracker with lastFault := some ⟨5, .overweight, 3⟩ } } = .next t ∧
      t.out.answer.map Answer.data = some (.lastFault (some ⟨5, 6, 3⟩)) := ⟨_, rfl, by decide⟩

/-- A snapshot with the last figure and with none left; the last index of READ_PIECE and the first beyond it. -/
theorem test_witness_ReadsAnswered :
    (∀ startup, { running with funds := { running.funds with startup := startup } }.funds.startup = startup) ∧
      running.port.latch = none ∧
      (let l : Latch := { figures := snapshot working, index := 8 }
       l.figures[l.index]? = some 0 ∧ [4, 6, 6, 4, 4, 2, 1, 4, 6][l.index]? = some 6) ∧
      9 ≤ { figures := snapshot working, index := 9 : Latch }.index ∧ 7 < 8 ∧ 7 ≤ 7 ∧
      BankSlot.blank.state = .empty ∧ (slot .loading 0).state = .loading ∧ (slot .loading 0).content = some bank ∧
      (slot .retiring 1).state = .retiring :=
  ⟨fun _ => rfl, by decide +kernel⟩

/-- STANDBY with these writes queued and one spoil record. -/
def drainable (writes : List StoreWrite) : State :=
  { standby with store := { standby.store with spoils := working.store.spoils }, funds := { standby.funds with writes := writes } }

/-- A CREDIT at the ceiling and one above it, at and above the range of CT, a DRAIN of the oldest record and of none, a queue of 5
and one of 6 writes. -/
theorem test_witness_StoreCommandsAndTransfers :
    (∀ writes, (drainable writes).powered = true ∧ (drainable writes).mode = .standby) ∧ running.mode ≠ .standby ∧
      ¬(running.mode = .standby ∨ running.mode = .quiet) ∧
      (drainable []).store.dr + 0 + (1999940000 : Word32).toNat ≤ 2000000000 ∧
      ¬(drainable []).store.dr + 0 + (1999940001 : Word32).toNat ≤ 2000000000 ∧ (1 : Word32) ≠ 0 ∧
      ¬{ standby.store with ct := 281474976710655 }.ct + 0 + (1 : Word32).toNat ≤ 281474976710655 ∧
      (drainable []).store.spoils[0]? = some ⟨1, .notSeen, 9, some 1, some 500, some 3, none⟩ ∧
      (drainable [.drain 1]).store.spoils.length ≤ 1 ∧ 6 ≤ (drainable (List.replicate 6 (.credit 5))).funds.writes.length ∧
      (drainable (List.replicate 5 (.credit 5))).funds.writes.length < 6 :=
  ⟨fun _ => ⟨rfl, rfl⟩, by decide +kernel⟩

end Sys2Proof.Tests
end

section
/-! What an admitted frame does before and after it is handed on, and a JOB CLOSE at the Intake Unit (R5, R8, R32, R47, R49). -/

namespace Sys2Proof.Machine

/-! ## An admitted frame is handed to its block -/

/-- The end of reception touches the Loop Port alone, and of it only the receiver's fields and the bad-frame count (R2). -/
theorem endReception_eq (octets : List Byte) (s : State) : ∃ receiver idleRun lost badFrames,
    endReception octets s = { s with loop := { s.loop with
      receiver := receiver, idleRun := idleRun, lost := lost, badFrames := badFrames } } := by
  unfold endReception
  split
  · split <;> exact ⟨_, _, _, _, rfl⟩
  all_goals exact ⟨_, _, _, _, rfl⟩

/-- The arbiter touches the Loop Port alone (R10). -/
theorem arbitrate_eq (s : State) : arbitrate s = { s with loop := (arbitrate s).loop } := by
  unfold arbitrate
  repeat' split
  all_goals rfl

/-- A message other than a notice is handed to its block by tests 4 to 6 of R5. -/
theorem forwardAndHand_good {f : Frame} {m : LineMessage} (s : State) (reading : f.reading = .good m)
    (notNotice : ∀ n, m ≠ .notice n) : forwardAndHand f s = hand m (enqueueForward f false s) := by
  cases m with
  | notice n => exact absurd rfl (notNotice n)
  | measureReport | addressReport | jobOpen | jobClose | rateSwitch | forwardedOnly | verifyReport =>
    simp only [forwardAndHand, reading]

/-- A good frame past the first tests reaches its block; what comes before and after in the disposal is the Loop Port's (R5, R8). -/
theorem dispose_good {f : Frame} {m : LineMessage} (s : State) (notOwn : s.isOwn f.origin.toNat = false)
    (hop : f.hop.toNat ≠ 1) (room : s.inRing = true → s.loop.forward.length < 4) (reading : f.reading = .good m)
    (notNotice : ∀ n, m ≠ .notice n) :
    ∃ before after, dispose f s = { hand m { s with loop := before } with loop := after } := by
  unfold dispose
  split
  next ring =>
    have decremented : ({ f with hop := f.hop - 1 } : Frame).reading = .good m := reading
    have inRing : disposeInRing f s = arbitrate (hand m (enqueueForward { f with hop := f.hop - 1 } false s)) := by
      rw [← forwardAndHand_good s decremented notNotice]
      simp [disposeInRing, notOwn, hop, room ring]
    exact ⟨_, _, inRing.trans (arbitrate_eq _)⟩
  next =>
    have aside : disposeAside f s = hand m s := by
      cases m with
      | notice n => exact absurd rfl (notNotice n)
      | measureReport | addressReport | jobOpen | jobClose | rateSwitch | forwardedOnly | verifyReport =>
        simp [disposeAside, notOwn, hop, reading]
    exact ⟨s.loop, _, aside⟩

/-- An admitted frame that says no notice does what its message does at its block, and otherwise changes only the Loop Port. -/
theorem receiveFrame_good {f : Frame} {m : LineMessage} {s : State} (admits : s.Admits f) (reading : f.reading = .good m)
    (notNotice : ∀ n, m ≠ .notice n) :
    ∃ before after, receiveFrame f s = { hand m { s with loop := before } with loop := after } := by
  obtain ⟨-, settled, good, notOwn, hop, room⟩ := admits
  obtain ⟨receiver, idleRun, lost, badFrames, ended⟩ := endReception_eq f.octets s
  have disposed : receiveFrame f s = dispose f (endReception f.octets s) := by
    simp [receiveFrame, State.deaf, settled, good]
  rw [disposed, ended]
  exact dispose_good _ notOwn hop room reading notNotice

/-- The arm of JOB_CLOSE. -/
theorem exec_jobClose (x : LineFrame) (s : State) : exec (.jobClose x) s = execJobClose x s := by
  rfl

/-! ## The record of a job number (R29) -/

/-- A job is OPEN when its record says so. -/
theorem jobIsOpen_iff (s : State) (n : Nat) : s.jobIsOpen n = true ↔ ∃ j, s.job? n = some j ∧ j.isOpen = true := by
  unfold State.jobIsOpen
  cases s.job? n <;> simp

/-- The parameters of a job in the table are those of its record. -/
theorem jobParams_of_job? {s : State} {n : Nat} {j : JobRecord} (found : s.job? n = some j) : s.jobParams n = j.params := by
  simp only [State.jobParams, found]

/-- Whether a job is OPEN depends on the table alone. -/
theorem jobIsOpen_of_jobs_eq {s t : State} (jobs : t.intake.jobs = s.intake.jobs) (n : Nat) :
    t.jobIsOpen n = s.jobIsOpen n := by
  simp only [State.jobIsOpen, State.job?, jobs]

/-! ## A record is set CLOSED (R32) -/

/-- The table and the closing order after an OPEN job is closed. -/
theorem markClosed_of_open {n : Nat} {s : State} (isOpen : s.jobIsOpen n = true) :
    markClosed n s = { s with intake := { s.intake with
      jobs := s.intake.jobs.map (fun j => if j.number = n then { j with isOpen := false } else j)
      closing := s.intake.closing ++ [n] } } := by
  simp only [markClosed, isOpen, if_true]

/-- A job that is not in the table as OPEN is left. -/
theorem markClosed_of_not_open {n : Nat} {s : State} (notOpen : s.jobIsOpen n = false) : markClosed n s = s := by
  simp [markClosed, notOpen]

/-- Closing a record changes the Intake Unit alone. -/
theorem markClosed_frame (n : Nat) (s : State) : { markClosed n s with intake := s.intake } = s := by
  unfold markClosed
  split <;> rfl

/-- What closing a record leaves of what a JOB CLOSE speaks of: all of the Intake Unit but the table and the closing order. -/
@[simp] theorem markClosed_keeps (n : Nat) (s : State) : (markClosed n s).mode = s.mode ∧
    (markClosed n s).port = s.port ∧ (markClosed n s).tracker = s.tracker ∧
    (markClosed n s).intake.passing = s.intake.passing ∧ (markClosed n s).intake.feedHold = s.intake.feedHold ∧
    (markClosed n s).intake.duplicates = s.intake.duplicates ∧ (markClosed n s).intake.quiesce = s.intake.quiesce := by
  unfold markClosed
  split <;> simp

/-- No job is OPEN after it is closed: the first record of its number keeps its place in the table, set CLOSED. -/
theorem markClosed_jobIsOpen (n : Nat) (s : State) : (markClosed n s).jobIsOpen n = false := by
  cases wasOpen : s.jobIsOpen n with
  | false => rw [markClosed_of_not_open wasOpen, wasOpen]
  | true =>
    obtain ⟨j, found, -⟩ := (jobIsOpen_iff s n).mp wasOpen
    have number : j.number = n := by simpa using List.find?_some found
    have sameNumber : ((fun j : JobRecord => j.number == n) ∘ fun j => if j.number = n then { j with isOpen := false } else j) =
        fun j => j.number == n := by
      funext j
      simp only [Function.comp]
      split <;> rfl
    have closed : (markClosed n s).job? n = some { j with isOpen := false } := by
      have table : s.intake.jobs.find? (fun j => j.number == n) = some j := found
      simp only [markClosed_of_open wasOpen, State.job?, List.find?_map, sameNumber, table, Option.map_some, number, if_true]
    simp only [State.jobIsOpen, closed]

/-! ## The head enters QUIESCING (R47, R49) -/

/-- The condition a head held is none once it is QUIESCING or QUIET. -/
theorem enterQuiescing_quiesce (s : State) : (enterQuiescing s).intake.quiesce = .none := by
  simp [enterQuiescing]

/-- With a piece in the table the head stays QUIESCING, without an event. -/
theorem enterQuiescing_of_pieces {s : State} (held : s.tracker.pieces ≠ []) :
    (enterQuiescing s).mode = .quiescing ∧ (enterQuiescing s).port = s.port := by
  simp [enterQuiescing, settleQuiet, held]

/-- With no piece in the table the head goes on to QUIET and raises QUIET_REACHED. -/
theorem enterQuiescing_of_no_pieces {s : State} (empty : s.tracker.pieces = []) :
    (enterQuiescing s).mode = .quiet ∧ (enterQuiescing s).port = (raise .quietReached s).port := by
  simp [enterQuiescing, settleQuiet, empty, raise]

/-- Entering QUIESCING changes the Intake Unit, the events and the mode, and no other block. -/
theorem enterQuiescing_frame (s : State) :
    { enterQuiescing s with intake := s.intake, port := s.port, mode := s.mode } = s := by
  unfold enterQuiescing settleQuiet
  split <;> rfl

/-! ## A JOB CLOSE at the Intake Unit (R32, R47) -/

/-- A JOB CLOSE that meets the held condition. -/
theorem closeJob_of_met {n : Nat} {s : State} (met : s.intake.quiesce = .atJobClose n) :
    closeJob n s = enterQuiescing (markClosed n s) := by
  simp only [closeJob, met, if_true]

/-- A JOB CLOSE that meets no condition. -/
theorem closeJob_of_unmet {n : Nat} {s : State} (unmet : s.intake.quiesce ≠ .atJobClose n) :
    closeJob n s = markClosed n s := by
  simp only [closeJob, unmet, if_false]

/-- The table and the order after a JOB CLOSE are those after its record is set CLOSED, whatever condition the head held. -/
theorem closeJob_table (n : Nat) (s : State) : (closeJob n s).intake.jobs = (markClosed n s).intake.jobs ∧
    (closeJob n s).intake.closing = (markClosed n s).intake.closing := by
  by_cases met : s.intake.quiesce = .atJobClose n
  · simp [closeJob_of_met met]
  · simp [closeJob_of_unmet met]

/-- A JOB CLOSE leaves every block but the Intake Unit, the pending events and the mode. -/
theorem closeJob_frame (n : Nat) (s : State) :
    { closeJob n s with intake := s.intake, port := s.port, mode := s.mode } = s := by
  by_cases met : s.intake.quiesce = .atJobClose n
  · rw [closeJob_of_met met]
    calc { enterQuiescing (markClosed n s) with intake := s.intake, port := s.port, mode := s.mode }
      _ = { markClosed n s with intake := s.intake, port := s.port, mode := s.mode } :=
        congrArg (fun t : State => { t with intake := s.intake, port := s.port, mode := s.mode })
          (enterQuiescing_frame (markClosed n s))
      _ = s := congrArg (fun t : State => { t with port := s.port, mode := s.mode }) (markClosed_frame n s)
  · rw [closeJob_of_unmet met]
    exact congrArg (fun t : State => { t with port := s.port, mode := s.mode }) (markClosed_frame n s)

/-- The passing list, feed control and the duplicate count stay at a JOB CLOSE. -/
theorem closeJob_keeps (n : Nat) (s : State) : (closeJob n s).intake.passing = s.intake.passing ∧
    (closeJob n s).intake.feedHold = s.intake.feedHold ∧ (closeJob n s).intake.duplicates = s.intake.duplicates := by
  unfold closeJob
  split <;> simp

/-- A job number in the table as OPEN is set CLOSED and joins the closing order (R32). -/
theorem closeJob_of_open (n : Nat) (s : State) (isOpen : s.jobIsOpen n = true) :
    (closeJob n s).intake.jobs = s.intake.jobs.map (fun j => if j.number = n then { j with isOpen := false } else j) ∧
    (closeJob n s).intake.closing = s.intake.closing ++ [n] := by
  obtain ⟨jobs, closing⟩ := closeJob_table n s
  rw [jobs, closing, markClosed_of_open isOpen]
  exact ⟨rfl, rfl⟩

/-- For any other job number the table and the order are left. -/
theorem closeJob_of_not_open (n : Nat) (s : State) (notOpen : s.jobIsOpen n = false) :
    (closeJob n s).intake.jobs = s.intake.jobs ∧ (closeJob n s).intake.closing = s.intake.closing := by
  obtain ⟨jobs, closing⟩ := closeJob_table n s
  rw [jobs, closing, markClosed_of_not_open notOpen]
  exact ⟨rfl, rfl⟩

/-- After a JOB CLOSE its job is not OPEN. -/
theorem closeJob_jobIsOpen (n : Nat) (s : State) : (closeJob n s).jobIsOpen n = false := by
  rw [jobIsOpen_of_jobs_eq (closeJob_table n s).1, markClosed_jobIsOpen]

/-- Without a held condition of its number a JOB CLOSE leaves condition, mode and events. -/
theorem closeJob_keeps_mode (n : Nat) (s : State) (unmet : s.intake.quiesce ≠ .atJobClose n) :
    (closeJob n s).intake.quiesce = s.intake.quiesce ∧ (closeJob n s).mode = s.mode ∧ (closeJob n s).port = s.port := by
  simp [closeJob_of_unmet unmet]

/-- A held condition of its number is met: the head is QUIESCING, or QUIET with QUIET_REACHED when it holds no piece (R47, R49). -/
theorem closeJob_quiesces (n : Nat) (s : State) (met : s.intake.quiesce = .atJobClose n) :
    (closeJob n s).intake.quiesce = .none ∧
    (s.tracker.pieces ≠ [] → (closeJob n s).mode = .quiescing ∧ (closeJob n s).port = s.port) ∧
    (s.tracker.pieces = [] → (closeJob n s).mode = .quiet ∧ (closeJob n s).port = (raise .quietReached s).port) := by
  have tracker : (markClosed n s).tracker = s.tracker := by simp
  have port : (markClosed n s).port = s.port := by simp
  rw [closeJob_of_met met]
  refine ⟨enterQuiescing_quiesce _, fun held => ?_, fun empty => ?_⟩
  · have entered := enterQuiescing_of_pieces (s := markClosed n s) (tracker ▸ held)
    rwa [port] at entered
  · have entered := enterQuiescing_of_no_pieces (s := markClosed n s) (tracker ▸ empty)
    simpa only [raise, port] using entered

/-- Settles O39: the frame is handed to the Intake Unit, where the closing of the record and the meeting of the condition are
told apart, each with its own rule. -/
theorem jobCloseHandled : Obligations.JobCloseHandled := by
  refine ⟨fun s n => ⟨jobIsOpen_iff s n, fun j => jobParams_of_job?⟩, fun x n s admits reading => ?_⟩
  obtain ⟨before, after, handed⟩ := receiveFrame_good admits reading (by simp)
  let heard : State := { s with loop := before }
  have done : exec (.jobClose x) s = .next { closeJob n heard with loop := after } := by
    rw [exec_jobClose, execJobClose, whenPowered_on s _ admits.1, handed, hand]
  obtain ⟨passing, feedHold, duplicates⟩ := closeJob_keeps n heard
  exact ⟨_, done, congrArg (fun t : State => { t with loop := s.loop }) (closeJob_frame n heard),
    closeJob_of_open n heard, closeJob_of_not_open n heard, closeJob_jobIsOpen n heard,
    passing, feedHold, duplicates, closeJob_keeps_mode n heard, closeJob_quiesces n heard⟩

end Sys2Proof.Machine
end

section
/-! The record of a piece number, and what changes it from outside: the pulses of the belt, the cutoff, and the reports (R52 to R54,
R59 to R62). -/

namespace Sys2Proof.Machine

/-! ## The record of a piece number (R54) -/

/-- A piece number without a record in the table. -/
theorem piece?_of_absent {s : State} {p : PieceNo} (absent : ∀ r ∈ s.tracker.pieces, r.piece ≠ p) : s.piece? p = none := by
  simpa [State.piece?] using absent

/-- A record of the table is the one its piece number finds: no other carries that number. -/
theorem piece?_of_mem {s : State} {r : PieceRecord} (sound : s.tracker.Sound) (held : r ∈ s.tracker.pieces) :
    s.piece? r.piece = some r := by
  obtain ⟨-, -, pieces⟩ := sound
  cases found : s.piece? r.piece with
  | none => simpa using List.find?_eq_none.mp found r held
  | some q =>
    have number : q.piece = r.piece := by simpa using List.find?_some found
    rw [List.inj_on_of_nodup_map pieces (List.mem_of_find?_eq_some found) held number]

/-- In a sound table a tag and a piece number name the same record. -/
theorem tag_eq_iff_piece_eq {t : Tracker} {q r : PieceRecord} (sound : t.Sound) (hq : q ∈ t.pieces) (hr : r ∈ t.pieces) :
    q.tag = r.tag ↔ q.piece = r.piece := by
  obtain ⟨tags, -, pieces⟩ := sound
  exact ⟨fun same => by rw [List.inj_on_of_nodup_map tags hq hr same],
    fun same => by rw [List.inj_on_of_nodup_map pieces hq hr same]⟩

/-- The state with the record of a piece number replaced. -/
def State.withRecord (s : State) (p : PieceNo) (r : PieceRecord) : State :=
  { s with tracker := { s.tracker with pieces := s.tracker.pieces.map (fun q => if q.piece = p then r else q) } }

/-- A change made to a record by its tag, told by its piece number. -/
theorem changeRecord_eq_withRecord {s : State} {r : PieceRecord} (change : PieceRecord → PieceRecord) (sound : s.tracker.Sound)
    (held : r ∈ s.tracker.pieces) : changeRecord r.tag change s = s.withRecord r.piece (change r) := by
  have pieces : s.tracker.pieces.map (fun q => if q.tag = r.tag then change q else q) =
      s.tracker.pieces.map (fun q => if q.piece = r.piece then change r else q) := by
    apply List.map_congr_left
    intro q hq
    by_cases same : q.piece = r.piece
    · have isRecord : q = r := List.inj_on_of_nodup_map sound.2.2 hq held same
      simp [isRecord]
    · have otherTag : q.tag ≠ r.tag := fun e => same ((tag_eq_iff_piece_eq sound hq held).mp e)
      simp [same, otherTag]
  simp only [changeRecord, State.withRecord, pieces]

/-! ## The pulses (R52) -/

/-- The arm of ENCODER_PULSE_FORWARD. -/
theorem exec_encoderPulseForward (s : State) : exec .encoderPulseForward s = execEncoderPulseForward s := by
  rfl

/-- The arm of ENCODER_PULSE_REVERSE. -/
theorem exec_encoderPulseReverse (s : State) : exec .encoderPulseReverse s = execEncoderPulseReverse s := by
  rfl

/-- The position after a forward pulse, in numbers: it wraps at its 24 bits. -/
theorem pulseForward_position (s : State) : (pulseForward s).tracker.position.toNat =
    if s.tracker.position.toNat = 16777215 then 0 else s.tracker.position.toNat + 1 := by
  have bound := s.tracker.position.isLt
  have sum : (pulseForward s).tracker.position.toNat = (s.tracker.position.toNat + 1) % 16777216 :=
    BitVec.toNat_add s.tracker.position 1
  split <;> omega

/-! ## The position after a restart (R52) -/

/-- The arm of POWER_UP. -/
theorem exec_powerUp (s : State) : exec .powerUp s = execPowerUp s := by
  rfl

/-- The arm of RESET_PIN. -/
theorem exec_resetPin (s : State) : exec .resetPin s = execResetPin s := by
  rfl

/-- The arm of HEAD_RESET. -/
theorem exec_headReset (s : State) : exec .headReset s = execHeadReset s := by
  rfl

/-- A reset puts the whole Piece Tracker at its reset values (R79). -/
@[simp] theorem resetHead_tracker (s : State) : (resetHead s).tracker = State.reset.tracker :=
  rfl

/-- Power-up and both resets leave the Piece Tracker at its reset values. -/
theorem restart_tracker {c : Instr} {s t : State}
    (restart : c = .powerUp ∨ s.powered = true ∧ (c = .resetPin ∨ c = .headReset)) (done : exec c s = .next t) :
    t.tracker = State.reset.tracker := by
  rcases restart with rfl | ⟨on, rfl | rfl⟩
  · rw [exec_powerUp, execPowerUp] at done
    cases done
    simp
  · rw [exec_resetPin, execResetPin, whenPowered_on s _ on] at done
    cases done
    simp
  · rw [exec_headReset, execHeadReset, whenPowered_on s _ on] at done
    cases done
    simp

/-- Settles O45: each pulse is its one operation on a powered controller, and every restart resets the Piece Tracker. -/
theorem pulsesCounted : Obligations.PulsesCounted := by
  refine ⟨fun s on => ⟨?_, pulseForward s, ?_, rfl, rfl, pulseForward_position s⟩, fun c s t restart done => ?_⟩
  · rw [exec_encoderPulseReverse, execEncoderPulseReverse, whenPowered_on s _ on]
  · rw [exec_encoderPulseForward, execEncoderPulseForward, whenPowered_on s _ on]
  · rw [restart_tracker restart done]
    rfl

/-! ## The cutoff (R53, R62) -/

/-- The arm of CUTOFF. -/
theorem exec_cutoff (p : PieceNo) (s : State) : exec (.cutoff p) s = execCutoff p s := by
  rfl

/-- A checkpoint event of a record in the table whose checkpoint is reached (R53). -/
theorem atCheckpoint_of_reached {s : State} {r : PieceRecord} {which : Checkpoints → Position}
    (act : PieceRecord → State → State) (sound : s.tracker.Sound) (held : r ∈ s.tracker.pieces)
    (now : reached s.tracker.position (which (s.checkpoints r)) = true) : atCheckpoint r.piece which act s = act r s := by
  simp only [atCheckpoint, piece?_of_mem sound held, now, if_true]

/-- The defaults, with a flag set exactly when its part is absent and left as it was otherwise (R62). -/
theorem defaultsInto_eq (r : PieceRecord) : defaultsInto r = { r with
    state := .ready
    flags := { r.flags with
      weightDefaulted := if r.measure = none then true else r.flags.weightDefaulted
      dimsDefaulted := if r.measure = none then true else r.flags.dimsDefaulted
      addressDefaulted := if r.address = none then true else r.flags.addressDefaulted } } := by
  cases measure : r.measure <;> cases address : r.address <;> simp [defaultsInto, measure, address]

/-- Settles O46: the cutoff finds its record by the piece number, and acts in TAKEN alone. -/
theorem cutoffDefaults : Obligations.CutoffDefaults := by
  refine ⟨reached_iff, fun r s on sound held now => ?_⟩
  have done : exec (.cutoff r.piece) s = .next (cutoffOf r s) := by
    rw [exec_cutoff, execCutoff, whenPowered_on s _ on, atCheckpoint_of_reached cutoffOf sound held now]
  refine ⟨fun taken => ?_, fun later => ?_⟩
  · rw [done, cutoffOf, if_pos taken, changeRecord_eq_withRecord _ sound held, defaultsInto_eq]
    rfl
  · rw [done, cutoffOf, if_neg later]

/-! ## A report at the Piece Tracker (R59 to R61) -/

/-- The arm of MEASURE_REPORT. -/
theorem exec_measureReport (x : LineFrame) (s : State) : exec (.measureReport x) s = execMeasureReport x s := by
  rfl

/-- The arm of ADDRESS_REPORT. -/
theorem exec_addressReport (x : LineFrame) (s : State) : exec (.addressReport x) s = execAddressReport x s := by
  rfl

/-- A report for no record has no effect (R61). -/
theorem reportTo_of_absent {s : State} {p : PieceNo} (change : PieceRecord → PieceRecord)
    (absent : ∀ r ∈ s.tracker.pieces, r.piece ≠ p) : reportTo p change s = s := by
  simp only [reportTo, piece?_of_absent absent]

/-- A report for a record of the table replaces that record. -/
theorem reportTo_of_mem {s : State} {r : PieceRecord} (change : PieceRecord → PieceRecord) (sound : s.tracker.Sound)
    (held : r ∈ s.tracker.pieces) : reportTo r.piece change s = s.withRecord r.piece (change r) := by
  simp only [reportTo, piece?_of_mem sound held, changeRecord_eq_withRecord change sound held]

/-- A report changes the Piece Tracker alone. -/
theorem reportTo_frame (p : PieceNo) (change : PieceRecord → PieceRecord) (s : State) :
    { reportTo p change s with tracker := s.tracker } = s := by
  unfold reportTo
  split <;> rfl

/-- An admitted frame that says a report is that report at the Piece Tracker, and otherwise the Loop Port's alone. -/
theorem receiveFrame_report {f : Frame} {m : LineMessage} {p : PieceNo} {change : PieceRecord → PieceRecord} {s : State}
    (admits : s.Admits f) (reading : f.reading = .good m) (report : ∀ t, hand m t = reportTo p change t)
    (notNotice : ∀ n, m ≠ .notice n) (sound : s.tracker.Sound) :
    { receiveFrame f s with loop := s.loop, tracker := s.tracker } = s ∧
    ((∀ r ∈ s.tracker.pieces, r.piece ≠ p) → (receiveFrame f s).tracker = s.tracker) ∧
    ∀ r ∈ s.tracker.pieces, r.piece = p →
      (receiveFrame f s).tracker = (s.withRecord p (change r)).tracker := by
  obtain ⟨before, after, handed⟩ := receiveFrame_good admits reading notNotice
  let heard : State := { s with loop := before }
  have tracker : (receiveFrame f s).tracker = (reportTo p change heard).tracker := by rw [handed, report]
  refine ⟨?_, fun absent => ?_, fun r held number => ?_⟩
  · rw [handed, report]
    exact congrArg (fun t : State => { t with loop := s.loop }) (reportTo_frame p change heard)
  · rw [tracker, reportTo_of_absent (s := heard) change absent]
  · subst number
    rw [tracker, reportTo_of_mem (s := heard) change sound held]
    rfl

/-! ## A measure report at a record (R59) -/

/-- In TAKEN a first measure part is attached, and the record is READY once it holds both parts. -/
theorem measureInto_taken {r : PieceRecord} (m : MeasurePart) (taken : r.state = .taken) (first : r.measure = none) :
    measureInto m r = { r with measure := some m, state := if r.address = none then .taken else .ready } := by
  cases address : r.address <;> simp [measureInto, taken, first, address]

/-- In TAKEN and READY a held measure part is replaced. -/
theorem measureInto_held {r : PieceRecord} (m : MeasurePart) (early : r.state = .taken ∨ r.state = .ready)
    (held : r.measure ≠ none) :
    measureInto m r = { r with measure := some m, flags := { r.flags with dupReport := true } } := by
  obtain ⟨old, measure⟩ := Option.ne_none_iff_exists'.mp held
  rcases early with state | state <;> simp [measureInto, state, measure]

/-- In READY a first measure part takes the place of the defaults. -/
theorem measureInto_ready {r : PieceRecord} (m : MeasurePart) (ready : r.state = .ready) (first : r.measure = none) :
    measureInto m r = { r with
      measure := some m, flags := { r.flags with weightDefaulted := false, dimsDefaulted := false } } := by
  simp [measureInto, ready, first]

/-- In later states a measure report is discarded. -/
theorem measureInto_late {r : PieceRecord} (m : MeasurePart) (notTaken : r.state ≠ .taken) (notReady : r.state ≠ .ready) :
    measureInto m r = { r with flags := { r.flags with lateData := true } } := by
  cases state : r.state with
  | taken => exact absurd state notTaken
  | ready => exact absurd state notReady
  | rating | rated | committing | committed | finishing => simp [measureInto, state]

/-- Settles O36: the frame is handed to the Piece Tracker as a report, and the record's state tells what it does there. -/
theorem measureReportHandled : Obligations.MeasureReportHandled := by
  intro x p m s admits reading sound
  obtain ⟨others, absent, held⟩ :=
    receiveFrame_report (change := measureInto m) admits reading (fun _ => rfl) (by simp) sound
  have done : exec (.measureReport x) s = .next (receiveFrame (lineFrame (kindCode .measureReport) x) s) := by
    rw [exec_measureReport, execMeasureReport, whenPowered_on s _ admits.1]
  exact ⟨_, done, others, absent, fun r hr number => ⟨measureInto m r, held r hr number,
    measureInto_taken m, measureInto_held m, measureInto_ready m, measureInto_late m⟩⟩

/-! ## An address report at a record (R60) -/

/-- In TAKEN a first address part is attached, and the record is READY once it holds both parts. -/
theorem addressInto_taken {r : PieceRecord} (a : AddressPart) (taken : r.state = .taken) (first : r.address = none) :
    addressInto a r = { r with address := some a, state := if r.measure = none then .taken else .ready } := by
  cases measure : r.measure <;> simp [addressInto, taken, first, measure]

/-- In TAKEN and READY a held address part is replaced. -/
theorem addressInto_held {r : PieceRecord} (a : AddressPart) (early : r.state = .taken ∨ r.state = .ready)
    (held : r.address ≠ none) :
    addressInto a r = { r with address := some a, flags := { r.flags with dupReport := true } } := by
  obtain ⟨old, address⟩ := Option.ne_none_iff_exists'.mp held
  rcases early with state | state <;> simp [addressInto, state, address]

/-- In READY a first address part takes the place of the default. -/
theorem addressInto_ready {r : PieceRecord} (a : AddressPart) (ready : r.state = .ready) (first : r.address = none) :
    addressInto a r = { r with address := some a, flags := { r.flags with addressDefaulted := false } } := by
  simp [addressInto, ready, first]

/-- In later states an address report is discarded. -/
theorem addressInto_late {r : PieceRecord} (a : AddressPart) (notTaken : r.state ≠ .taken) (notReady : r.state ≠ .ready) :
    addressInto a r = { r with flags := { r.flags with lateData := true } } := by
  cases state : r.state with
  | taken => exact absurd state notTaken
  | ready => exact absurd state notReady
  | rating | rated | committing | committed | finishing => simp [addressInto, state]

/-- Settles O37: as O36, with the address part. -/
theorem addressReportHandled : Obligations.AddressReportHandled := by
  intro x p a s admits reading sound
  obtain ⟨others, absent, held⟩ :=
    receiveFrame_report (change := addressInto a) admits reading (fun _ => rfl) (by simp) sound
  have done : exec (.addressReport x) s = .next (receiveFrame (lineFrame (kindCode .addressReport) x) s) := by
    rw [exec_addressReport, execAddressReport, whenPowered_on s _ admits.1]
  exact ⟨_, done, others, absent, fun r hr number => ⟨addressInto a r, held r hr number,
    addressInto_taken a, addressInto_held a, addressInto_ready a, addressInto_late a⟩⟩

end Sys2Proof.Machine
end

section
/-! A RATE SWITCH at the Rate Store (R89). -/

namespace Sys2Proof.Machine

/-- The arm of RATE_SWITCH. -/
theorem exec_rateSwitch (x : LineFrame) (s : State) : exec (.rateSwitch x) s = execRateSwitch x s := by
  rfl

/-- A RATE SWITCH replaces the switch point and clears the not-ready mark, and leaves the rest of the Rate Store. -/
theorem recordSwitch_rates (point : SwitchPoint) (s : State) :
    (recordSwitch point s).rates = { s.rates with switchPoint := some point, notReady := false } := by
  rfl

/-- Recording a switch point changes the Rate Store alone. -/
theorem recordSwitch_frame (point : SwitchPoint) (s : State) : { recordSwitch point s with rates := s.rates } = s := by
  rfl

/-- Settles O40: the frame is handed to the Rate Store whatever the mode and the attach state, and what the disposal does before
and after that is the Loop Port's. -/
theorem rateSwitchRecorded : Obligations.RateSwitchRecorded := by
  intro x point s admits reading
  obtain ⟨before, after, handed⟩ := receiveFrame_good admits reading (by simp)
  let heard : State := { s with loop := before }
  have done : exec (.rateSwitch x) s = .next { recordSwitch point heard with loop := after } := by
    rw [exec_rateSwitch, execRateSwitch, whenPowered_on s _ admits.1, handed, hand]
  exact ⟨_, done, congrArg (fun t : State => { t with loop := s.loop }) (recordSwitch_frame point heard),
    recordSwitch_rates point heard⟩

end Sys2Proof.Machine
end

section
/-! The stages of a rating in their order: the service class, the weight step and the zone (R101, R110 to R112). -/

namespace Sys2Proof.Machine

/-! ## The stages of a rating in order (R97, R100) -/

/-- Stages 6 to 8 end with VALUE_OVER or with a postage that carries the index of the step. -/
theorem charge_cases (resolution : Nat) (i : RatingInputs) (shape : Shape) (step : Nat × StepEntry) :
    charge resolution i shape step = .fault .valueOver ∨
      ∃ r flags, charge resolution i shape step = .postage r flags ∧ r.stepIndex = step.1 := by
  simp only [charge]
  split
  · exact .inl rfl
  · exact .inr ⟨_, _, rfl, rfl⟩

/-- A fault of stage 1 ends the rating. -/
theorem rate_of_classFault {i : RatingInputs} {f : RatingFault} (resolution : Nat) (fault : classFault i = some f) :
    rate resolution i = .fault f := by
  simp only [rate, fault]

/-- A shape that the descriptor does not accept ends the rating at stage 2. -/
theorem rate_of_shapeRefused {i : RatingInputs} (resolution : Nat) (classPasses : classFault i = none)
    (refused : acceptsShape i.descriptor (shapeOf i.bank.header i.dims) = false) :
    rate resolution i = .fault .shapeRefused := by
  simp only [rate, classPasses, refused, if_true]

/-- A weight beyond every step of the run ends the rating at stage 5. -/
theorem rate_of_noStep {i : RatingInputs} (resolution : Nat) (classPasses : classFault i = none)
    (accepted : acceptsShape i.descriptor (shapeOf i.bank.header i.dims) = true)
    (noStep : stepFor i (chargeableWeight i (shapeOf i.bank.header i.dims)) = none) :
    rate resolution i = .fault .overweight := by
  simp [rate, classPasses, accepted, noStep]

/-- A rating that finds its step goes on to stages 6 to 8. -/
theorem rate_of_step {i : RatingInputs} {step : Nat × StepEntry} (resolution : Nat) (classPasses : classFault i = none)
    (accepted : acceptsShape i.descriptor (shapeOf i.bank.header i.dims) = true)
    (found : stepFor i (chargeableWeight i (shapeOf i.bank.header i.dims)) = some step) :
    rate resolution i = charge resolution i (shapeOf i.bank.header i.dims) step := by
  simp [rate, classPasses, accepted, found]

/-- Past stage 1 a rating can end with the fault of stage 2, of stage 5 or of stage 8 only. -/
theorem fault_past_class {resolution : Nat} {i : RatingInputs} {f : RatingFault} (classPasses : classFault i = none)
    (ends : rate resolution i = .fault f) : f = .shapeRefused ∨ f = .overweight ∨ f = .valueOver := by
  cases shape : acceptsShape i.descriptor (shapeOf i.bank.header i.dims) with
  | false =>
    rw [rate_of_shapeRefused resolution classPasses shape] at ends
    cases ends
    exact .inl rfl
  | true =>
    cases step : stepFor i (chargeableWeight i (shapeOf i.bank.header i.dims)) with
    | none =>
      rw [rate_of_noStep resolution classPasses shape step] at ends
      cases ends
      exact .inr (.inl rfl)
    | some found =>
      rw [rate_of_step resolution classPasses shape step] at ends
      obtain valueOver | ⟨_, _, postage, _⟩ := charge_cases resolution i (shapeOf i.bank.header i.dims) found
      · rw [valueOver] at ends
        cases ends
        exact .inr (.inr rfl)
      · rw [postage] at ends
        cases ends

/-! ## Stage 1: the service class (R101) -/

/-- Settles O21: each clause gives the tests of R101 before its own as passed, so `classFault` is decided by its own. -/
theorem serviceClassTests : Obligations.ServiceClassTests := by
  intro resolution i
  refine ⟨fun null => ?_, fun named above => ?_, fun named within absent => ?_, fun named within present low => ?_,
    fun named within present level => ⟨rfl, fun f => fault_past_class ?_⟩⟩
  · exact rate_of_classFault resolution (by simp only [classFault, if_pos null])
  · exact rate_of_classFault resolution (by simp only [classFault, if_neg named, if_pos above])
  · exact rate_of_classFault resolution (by
      simp only [classFault, if_neg named, if_neg within.not_gt, if_pos absent])
  · exact rate_of_classFault resolution (by
      simp only [classFault, if_neg named, if_neg within.not_gt, if_neg (ne_false_of_eq_true present), if_pos low])
  · simp only [classFault, if_neg named, if_neg within.not_gt, if_neg (ne_false_of_eq_true present), if_neg level.not_gt]

/-! ## Stage 5: the weight step (R110) -/

/-- The step found is the entry of the run at the least offset whose limit holds the weight. -/
theorem first_of_stepFor_eq_some {i : RatingInputs} {weight k : Nat} {e : StepEntry} (found : stepFor i weight = some (k, e)) :
    e = i.bank.step k ∧ i.descriptor.firstStep ≤ k ∧ k < i.descriptor.firstStep + i.descriptor.stepCount ∧
      weight ≤ expandedLimit e ∧
      ∀ j, i.descriptor.firstStep ≤ j → j < k → expandedLimit (i.bank.step j) < weight := by
  rw [stepFor, Bank.run, List.find?_map, Option.map_eq_some_iff] at found
  obtain ⟨offset, first, entry⟩ := found
  obtain ⟨holds, inRun, before⟩ := List.find?_range_eq_some.mp first
  obtain ⟨rfl, rfl⟩ := Prod.mk.inj entry
  refine ⟨rfl, Nat.le_add_right _ _, Nat.add_lt_add_left (List.mem_range.mp inRun) _, of_decide_eq_true holds, ?_⟩
  intro j low high
  obtain ⟨earlier, rfl⟩ := Nat.exists_eq_add_of_le low
  simpa using before earlier (by omega)

/-- No step is found when the weight is beyond every entry of the run. -/
theorem stepFor_eq_none (i : RatingInputs) (weight : Nat) : stepFor i weight = none ↔
    ∀ j, i.descriptor.firstStep ≤ j → j < i.descriptor.firstStep + i.descriptor.stepCount →
      expandedLimit (i.bank.step j) < weight := by
  rw [stepFor, Bank.run, List.find?_map, Option.map_eq_none_iff, List.find?_range_eq_none]
  simp only [Function.comp_apply, Bool.not_eq_true', decide_eq_false_iff_not, not_le]
  constructor
  · intro below j low high
    obtain ⟨offset, rfl⟩ := Nat.exists_eq_add_of_le low
    exact below offset (by omega)
  · intro below offset inRun
    exact below _ (Nat.le_add_right _ _) (Nat.add_lt_add_left inRun _)

/-- The expanded limit by the grain (R84). -/
theorem expandedLimit_eq (e : StepEntry) :
    (e.grain = .fine → expandedLimit e = e.limit) ∧ (e.grain = .coarse → expandedLimit e = e.limit * 10 + 9) := by
  constructor <;> intro grain <;> simp only [expandedLimit, grain]

/-- Settles O23: the search of the run finds its first entry that holds the weight, and the charge carries that entry's index. -/
theorem weightStep : Obligations.WeightStep := by
  intro i weight
  refine ⟨fun k e => first_of_stepFor_eq_some, stepFor_eq_none i weight, expandedLimit_eq, fun resolution classPasses accepted =>
    ⟨rate_of_noStep resolution classPasses accepted, fun k e r flags found postage => ?_⟩⟩
  rw [rate_of_step resolution classPasses accepted found] at postage
  obtain valueOver | ⟨_, _, charged, index⟩ :=
    charge_cases resolution i (shapeOf i.bank.header i.dims) (k, e)
  · rw [valueOver] at postage
    cases postage
  · rw [charged] at postage
    cases postage
    exact index

/-! ## Stage 6: the zone (R111, R112) -/

/-- An entry matches when it has no more digits than the destination and they are the destination's first. -/
theorem zoneMatches_iff (destination : List Nat) (e : ZoneEntry) : zoneMatches destination e = true ↔
    e.count ≤ destination.length ∧ e.digits.take e.count = destination.take e.count := by
  simp only [zoneMatches, Bool.and_eq_true, decide_eq_true_eq, beq_iff_eq]

/-- There is no longest match exactly when no entry matches. -/
theorem longestMatch_eq_none (destination : List Nat) (l : List ZoneEntry) :
    longestMatch destination l = none ↔ ∀ e ∈ l, ¬zoneMatches destination e = true := by
  induction l with
  | nil => simp [longestMatch]
  | cons a rest ih =>
    rw [List.forall_mem_cons, ← ih]
    cases tail : longestMatch destination rest with
    | none => by_cases head : zoneMatches destination a = true <;> simp [longestMatch, tail, head]
    | some best =>
      simp only [longestMatch, tail]
      split <;> simp

/-- The longest match is an entry of the list that matches, and no matching entry of the list has more digits. -/
theorem longestMatch_eq_some {destination : List Nat} {l : List ZoneEntry} {e : ZoneEntry}
    (found : longestMatch destination l = some e) :
    e ∈ l ∧ zoneMatches destination e = true ∧ ∀ x ∈ l, zoneMatches destination x = true → x.count ≤ e.count := by
  induction l generalizing e with
  | nil => cases found
  | cons a rest ih =>
    simp only [List.forall_mem_cons]
    cases tail : longestMatch destination rest with
    | none =>
      simp only [longestMatch, tail, Option.ite_none_right_eq_some, Option.some.injEq] at found
      obtain ⟨head, rfl⟩ := found
      have others := (longestMatch_eq_none destination rest).mp tail
      exact ⟨List.mem_cons_self, head, fun _ => le_rfl, fun x hx hits => absurd hits (others x hx)⟩
    | some best =>
      obtain ⟨inRest, hits, longest⟩ := ih tail
      simp only [longestMatch, tail] at found
      split at found
      next longer =>
        cases found
        exact ⟨List.mem_cons_self, longer.1, fun _ => le_rfl, fun x hx also => (longest x hx also).trans longer.2⟩
      next shorter =>
        cases found
        exact ⟨List.mem_cons_of_mem a inRest, hits, fun head => Nat.le_of_not_le fun longer => shorter ⟨head, longer⟩,
          longest⟩

/-- The entries in use, without their indexes. -/
theorem mem_zonesInUse_snd (b : Bank) (e : ZoneEntry) :
    e ∈ b.zonesInUse.map Prod.snd ↔ ∃ k, b.maps k ∧ b.zone k = e := by
  simp [mem_zonesInUse, eq_comm]

/-- The zone of a zoned service with a destination is that of the longest match, or the bank's default zone. -/
theorem zoneOf_of_destination {i : RatingInputs} (zoned : i.descriptor.zoned = true) (given : i.destination ≠ []) :
    zoneOf i = ((longestMatch i.destination (i.bank.zonesInUse.map Prod.snd)).map ZoneEntry.zone).getD
      i.bank.header.defaultZone := by
  simp only [zoneOf, if_neg (ne_false_of_eq_true zoned), if_neg given]
  cases longestMatch i.destination (i.bank.zonesInUse.map Prod.snd) <;> rfl

/-- Two entries in use that match one destination and have one digit count have the same digits (R112). -/
theorem digits_eq_of_zoneMatches {destination : List Nat} {x y : ZoneEntry} (hx : zoneMatches destination x = true)
    (hy : zoneMatches destination y = true) (count : x.count = y.count) :
    x.digits.take x.count = y.digits.take y.count := by
  rw [((zoneMatches_iff destination x).mp hx).2, ((zoneMatches_iff destination y).mp hy).2, count]

/-- Where no two entries in use are alike, a matching entry in use with the greatest digit count is the longest match. -/
theorem longestMatch_zonesInUse {b : Bank} {destination : List Nat} {k : Nat}
    (distinct : ∀ k l, b.maps k → b.maps l → (b.zone k).count = (b.zone l).count →
      (b.zone k).digits.take (b.zone k).count = (b.zone l).digits.take (b.zone l).count → k = l)
    (used : b.maps k) (hits : zoneMatches destination (b.zone k) = true)
    (longest : ∀ l, b.maps l → zoneMatches destination (b.zone l) = true → (b.zone l).count ≤ (b.zone k).count) :
    longestMatch destination (b.zonesInUse.map Prod.snd) = some (b.zone k) := by
  have listed : b.zone k ∈ b.zonesInUse.map Prod.snd := (mem_zonesInUse_snd b _).mpr ⟨k, used, rfl⟩
  cases found : longestMatch destination (b.zonesInUse.map Prod.snd) with
  | none => exact absurd hits ((longestMatch_eq_none destination _).mp found _ listed)
  | some best =>
    obtain ⟨bestListed, bestHits, greatest⟩ := longestMatch_eq_some found
    obtain ⟨l, usedBest, rfl⟩ := (mem_zonesInUse_snd b best).mp bestListed
    have count : (b.zone l).count = (b.zone k).count :=
      le_antisymm (longest l usedBest bestHits) (greatest _ listed hits)
    rw [distinct l k usedBest used count (digits_eq_of_zoneMatches bestHits hits count)]

/-- Settles O24: the search of the zone map finds the one entry that matches with the greatest digit count, or none. -/
theorem zoneOfAPiece : Obligations.ZoneOfAPiece := by
  intro i
  refine ⟨fun unzoned => ?_, fun zoned empty => ?_, fun zoned given => ?_⟩
  · simp only [zoneOf, if_pos unzoned]
  · simp only [zoneOf, if_neg (ne_false_of_eq_true zoned), if_pos empty]
  · simp only [← zoneMatches_iff]
    rw [zoneOf_of_destination zoned given]
    intro distinct
    refine ⟨fun k used hits longest => ?_, fun noMatch => ?_⟩
    · rw [longestMatch_zonesInUse distinct used hits longest]
      rfl
    · have unmatched : longestMatch i.destination (i.bank.zonesInUse.map Prod.snd) = none := by
        rw [longestMatch_eq_none]
        intro e listed
        obtain ⟨k, used, rfl⟩ := (mem_zonesInUse_snd i.bank e).mp listed
        exact noMatch k used
      rw [unmatched]
      rfl

end Sys2Proof.Machine
end

section
/-! What a command does to a controller with power, and how a property of one command becomes a property of every step (logs 1, 7). -/

-- In the joined text, theorems elaborated at once need more thread stacks than the box has memory for.
set_option Elab.async false

namespace Sys2Proof.Machine

/-! ## The effect of a command -/

/-- The state after a power-up (R15, R174). -/
def powerUp (s : State) : State :=
  { resetHead (if s.powered then losePower s else s) with loop := LoopPort.initial }

/-- The effect of a command on a controller with power; that of POWER_UP with or without. -/
def effect (c : Instr) (s : State) : State :=
  match c with
  | .powerUp => powerUp s
  | .resetPin => resetHead s
  | .resetRelaySettled => relaySettled s
  | .frameAbandoned why => abandonFrame why s
  | .badFrame octets => receiveOctets octets s
  | .unknownKindFrame kind f => receiveFrame (lineFrame kind f) s
  | .pieceNotice f => receiveFrame (lineFrame (kindCode .pieceNotice) f) s
  | .releasedNotice f => receiveFrame (lineFrame (kindCode .pieceNotice) f) s
  | .measureReport f => receiveFrame (lineFrame (kindCode .measureReport) f) s
  | .addressReport f => receiveFrame (lineFrame (kindCode .addressReport) f) s
  | .jobOpen f => receiveFrame (lineFrame (kindCode .jobOpen) f) s
  | .jobClose f => receiveFrame (lineFrame (kindCode .jobClose) f) s
  | .rateSwitch f => receiveFrame (lineFrame (kindCode .rateSwitch) f) s
  | .feedHold f => receiveFrame (lineFrame (kindCode .feedHold) f) s
  | .feedResume f => receiveFrame (lineFrame (kindCode .feedResume) f) s
  | .frankReport f => receiveFrame (lineFrame (kindCode .frankReport) f) s
  | .verifyReport f => receiveFrame (lineFrame (kindCode .verifyReport) f) s
  | .forwardFrameSent => forwardSent s
  | .ownFrameSent => ownSent s
  | .joinSwitchStart => joinSwitchStart s
  | .joinSwitchComplete => joinSwitchComplete s
  | .leaveSwitchStart => leaveSwitchStart s
  | .leaveSwitchComplete => leaveSwitchComplete s
  | .loopLost => loseLoop s
  | .loopReturn sym => receiveSymbol sym s
  | .encoderPulseForward => pulseForward s
  | .encoderPulseReverse => raise .beltReverse s
  | .cutoff piece => atCheckpoint piece Checkpoints.cutoff cutoffOf s
  | .commitCheckpoint piece => atCheckpoint piece Checkpoints.commit commitOf s
  | .printCheckpoint piece => atCheckpoint piece Checkpoints.print printOf s
  | .resultDeadline piece => atCheckpoint piece Checkpoints.deadline deadlineOf s
  | .ratingStart => startRating s
  | .ratingResult => deliverResult s
  | .commitWriteComplete =>
    match s.funds.writes with
    | .commit postage piece job dateCode :: rest => commitComplete postage piece job dateCode rest s
    | _ => s
  | .closeWriteComplete =>
    match s.funds.writes with
    | .close serial :: rest => closeComplete serial rest s
    | _ => s
  | .spoilSlotWriteComplete =>
    match s.funds.writes with
    | .spoilSlot serial reason :: rest => spoilSlotComplete serial reason rest s
    | _ => s
  | .spoilVerdictWriteComplete =>
    match s.funds.writes with
    | .spoilVerdict piece serial value job reason :: rest => spoilVerdictComplete piece serial value job reason rest s
    | _ => s
  | .spoilUnmatchedWriteComplete =>
    match s.funds.writes with
    | .spoilUnmatched piece :: rest => spoilUnmatchedComplete piece rest s
    | _ => s
  | .creditWriteComplete =>
    match s.funds.writes with
    | .credit amount :: rest => creditComplete amount rest s
    | _ => s
  | .drainWriteComplete =>
    match s.funds.writes with
    | .drain sequence :: rest => drainComplete sequence rest s
    | _ => s
  | .storeWriteFailed => failStore s
  | .startupReadComplete good => if s.funds.startup = .reading then (if good then readGood s else readFailed s) else s
  | .imprintDone serial => resultDone serial.toNat (endMessage s)
  | .imprintFailed serial _ => resultFailed serial.toNat (endMessage s)
  | .imprintMessageDiscarded input => engineInput input s
  | .imprintMessageSent => messageSent s
  | .configure record => configure record s
  | .loadBankBlock slot index part => loadBank slot index part s
  | .commitBank slot => commitBank slot s
  | .join => joinRing s
  | .leave => leaveRing s
  | .quiesce condition => quiesceHead condition s
  | .resume => resumeHead s
  | .headReset => resetHead (answerOperation .accepted s)
  | .readFunds => readFunds s
  | .readFundsNext => readFundsNext s
  | .readPiece index => readPiece index s
  | .readBankState => answerRead .accepted (bankAnswer s) s
  | .readEvents => readEvents s
  | .clearEvents => clearEvents s
  | .readSpoilOldest => readSpoilOldest s
  | .readLineCounts => readLineCounts s
  | .readLastFault => answerRead .accepted (faultAnswer s) s
  | .credit amount => creditHead amount.toNat s
  | .drainSpoil sequence => drainHead sequence s
  | .unknownCommand _ => answer (.refused .unknownCommand) .untyped .nothing s
  | .shortTransfer type => shortTransfer type s
  | .idleReceived sym => receiveSymbol sym s
  | .powerLoss => losePower s

/-- Every command completes: with its effect on a controller with power, and POWER_UP without (log 7). -/
theorem exec_eq_effect (c : Instr) (s : State) (on : s.powered = true ∨ c = .powerUp) : exec c s = .next (effect c s) := by
  rcases on with on | rfl
  · cases c with
    | powerUp => rfl
    | _ =>
      show Host.Outcome.next (if s.powered = true then _ else s) = _
      rw [if_pos on]
      rfl
  · rfl

/-- Without power every command but POWER_UP leaves the state (log 7). -/
theorem exec_unpowered (c : Instr) (s : State) (off : s.powered = false) (other : c ≠ .powerUp) : exec c s = .next s := by
  cases c with
  | powerUp => exact absurd rfl other
  | _ =>
    show Host.Outcome.next (if s.powered = true then _ else s) = _
    rw [if_neg (by simp [off])]

/-- The state a command answers. -/
theorem exec_next {c : Instr} {s t : State} (done : exec c s = .next t) :
    t = s ∨ (s.powered = true ∨ c = .powerUp) ∧ t = effect c s := by
  by_cases on : s.powered = true ∨ c = .powerUp
  · rw [exec_eq_effect c s on] at done
    exact .inr ⟨on, (Host.Outcome.next.inj done).symm⟩
  · obtain ⟨off, other⟩ := not_or.mp on
    rw [exec_unpowered c s (Bool.eq_false_iff.mpr off) other] at done
    exact .inl (Host.Outcome.next.inj done).symm

/-- A relation that holds of a state and itself, and of a state and every effect on it, holds of every command. -/
theorem exec_relates {R : State → State → Prop} {c : Instr} (same : ∀ s, R s s) (acts : ∀ s, R s (effect c s)) {s t : State}
    (done : exec c s = .next t) : R s t := by
  rcases exec_next done with rfl | ⟨-, rfl⟩
  · exact same t
  · exact acts s

/-! ## Steps -/

/-- What a step does: nothing on an empty queue, otherwise the effect of the front command before the rest of the queue. -/
theorem step_next {s t : State} (done : step s = .next t) :
    t = s ∨ ∃ c rest, s.pending = c :: rest ∧ exec c { s with pending := rest } = .next t := by
  unfold step at done
  split at done
  · exact .inl (Host.Outcome.next.inj done).symm
  next c rest queue => exact .inr ⟨c, rest, queue, done⟩

/-- A property that the queue has no part in, and that the effect of every command keeps, is kept by every step. -/
theorem step_keeps {P : State → Prop} (queue : ∀ s rest, P s → P { s with pending := rest })
    (acts : ∀ c s, P s → P (effect c s)) {s t : State} (before : P s) (done : step s = .next t) : P t := by
  rcases step_next done with rfl | ⟨c, rest, -, ran⟩
  · exact before
  · have held := queue s rest before
    rcases exec_next ran with rfl | ⟨-, rfl⟩
    · exact held
    · exact acts c _ held

/-- Settles O1: a step of a state with a command in front is, by definition, that command on the rest. -/
theorem stepTakesFront : Obligations.StepTakesFront :=
  fun _ _ _ => rfl

end Sys2Proof.Machine
end

section
/-! What no command but a restart does: one relation between the state before and the state after, with one lemma for each
operation. The bounds, the closing order, the event sets, the queue, and what stands until a restart are read off it. -/

set_option Elab.async false

namespace Sys2Proof.Machine

/-- How a state that a command other than a restart can reach goes with the one before it. A field that some commands change
names them; every other field holds of every command. -/
structure Keeps (c : Instr) (s t : State) : Prop where
  pending : t.pending = s.pending := by simp
  loop : s.loop.Bounded → t.loop.Bounded := by simp
  intake : s.intake.Bounded → t.intake.Bounded := by simp [Intake.Bounded]
  bounded : s.store.Bounded → t.store.Bounded := by simp
  units : s.UnitsBounded → t.UnitsBounded := by simp [State.UnitsBounded]
  closing : s.intake.ClosingSound → t.intake.ClosingSound := by simp [Intake.ClosingSound]
  port : s.port.Sound → t.port.Sound := by simp [Port.Sound]
  events : c ≠ .clearEvents → ∀ e ∈ s.port.events, e ∈ t.port.events := by simp
  store : isWriteComplete c = false → t.store = s.store := by simp
  position : c ≠ .encoderPulseForward → t.tracker.position = s.tracker.position := by simp
  config : (∀ r, c ≠ .configure r) → t.port.config = s.port.config := by simp
  halted : s.mode = .halted → s.intake.quiesce = .none → t.mode = .halted ∧ t.intake.quiesce = .none := by
    simp +contextual

namespace Keeps

variable {c : Instr} {s t u : State}

/-- Nothing changed. -/
theorem refl (c : Instr) (s : State) : Keeps c s s := {}

/-- A chain of two. -/
theorem trans (h : Keeps c s t) (k : Keeps c t u) : Keeps c s u where
  pending := k.pending.trans h.pending
  loop b := k.loop (h.loop b)
  intake b := k.intake (h.intake b)
  bounded b := k.bounded (h.bounded b)
  units b := k.units (h.units b)
  closing b := k.closing (h.closing b)
  port b := k.port (h.port b)
  events n e m := k.events n e (h.events n e m)
  store n := (k.store n).trans (h.store n)
  position n := (k.position n).trans (h.position n)
  config n := (k.config n).trans (h.config n)
  halted m q := (h.halted m q).elim k.halted

end Keeps

variable (c : Instr)

/-! ## Events and modes -/

/-- The pending set with an event added is in its one form (R172). -/
theorem addEvent_sorted (e : Event) (set : List Event) :
    addEvent e set = allEvents.filter (fun x => (addEvent e set).contains x) := by
  refine List.filter_congr fun x _ => ?_
  have same : (addEvent e set).contains x = true ↔ x = e ∨ set.contains x = true := by simp [mem_addEvent_iff]
  rw [Bool.eq_iff_iff, same]
  simp

/-- A raise keeps the event sets sound: the event raised is no longer last-reported, and the others stay pending (R172). -/
theorem raise_portSound (e : Event) (s : State) (h : s.port.Sound) : (raise e s).port.Sound := by
  obtain ⟨-, reported⟩ := h
  refine ⟨addEvent_sorted e s.port.events, fun x hx => ?_⟩
  exact (mem_addEvent_iff e x _).mpr (.inr (reported x (List.mem_filter.mp hx).1))

/-- An event raised. -/
theorem keeps_raise (e : Event) (s : State) : Keeps c s (raise e s) :=
  { port := raise_portSound e s, events := fun _ x h => raise_keeps_pending e x s h }

/-- The head enters HALTED. -/
theorem keeps_halt (s : State) : Keeps c s (halt s) := {}

/-- An empty table in QUIESCING. -/
theorem keeps_settleQuiet (s : State) : Keeps c s (settleQuiet s) := by
  unfold settleQuiet
  split
  next quiet =>
    have entered : Keeps c s { s with mode := .quiet } :=
      { halted := fun m _ => by simp [quiet.1] at m }
    exact entered.trans (keeps_raise c _ _)
  next => exact .refl c s

/-- QUIESCING entered, but from HALTED without a condition. -/
theorem keeps_enterQuiescing (s : State) (may : s.intake.quiesce = .none → s.mode ≠ .halted) :
    Keeps c s (enterQuiescing s) := by
  have entered : Keeps c s { s with mode := .quiescing, intake := { s.intake with quiesce := .none } } :=
    { halted := fun m q => absurd m (may q) }
  exact entered.trans (keeps_settleQuiet c _)

/-! ## The Loop Port -/

/-- A saturating count is within its limit. -/
theorem saturate_le (limit n : Nat) : saturate limit n ≤ limit := by
  unfold saturate
  split <;> omega

/-- A bad frame counted. -/
theorem keeps_countBad (s : State) : Keeps c s (countBad s) :=
  { loop := fun ⟨receiver, run, _, forward, own⟩ => ⟨receiver, run, saturate_le _ _, forward, own⟩ }

/-- The arbiter's choice. -/
theorem keeps_arbitrate (s : State) : Keeps c s (arbitrate s) :=
  { loop := by simp [LoopPort.Bounded] }

/-- A frame given to the Loop Port. -/
theorem keeps_giveFrame (kind : FrameKind) (body : List Byte) (s : State) : Keeps c s (giveFrame kind body s) := by
  unfold giveFrame
  split
  · split
    next room =>
      have joined : Keeps c s { s with loop := { s.loop with own := s.loop.own ++ [ownFrame s kind body] } } :=
        { loop := fun ⟨receiver, run, bad, forward, _⟩ => ⟨receiver, run, bad, forward, by simpa using room⟩ }
      exact joined.trans (keeps_arbitrate c _)
    next => exact keeps_raise c _ _
  · exact .refl c s

/-! ## The piece table -/

/-- A record changed. -/
theorem keeps_changeRecord (tag : Nat) (change : PieceRecord → PieceRecord) (s : State) :
    Keeps c s (changeRecord tag change s) := {}

/-- The feed-hold rule. -/
theorem keeps_feedHoldRule (s : State) : Keeps c s (feedHoldRule s) := by
  unfold feedHoldRule
  split
  · have flagged : Keeps c s { s with intake := { s.intake with feedHold := true } } := {}
    exact flagged.trans (keeps_giveFrame c _ _ _)
  · exact .refl c s

/-- The frames of a retirement. -/
theorem keeps_giveAtRetirement (kind : FrameKind) (body : List Byte) (s : State) :
    Keeps c s (giveAtRetirement kind body s) := by
  unfold giveAtRetirement
  split
  · have cleared : Keeps c s { s with intake := { s.intake with feedHold := false }, freeCount := s.freeCount + 1 } :=
      {}
    split
    all_goals exact cleared.trans ((keeps_giveFrame c _ _ _).trans (keeps_giveFrame c _ _ _))
  · exact keeps_giveFrame c _ _ _

/-- A record taken out of the table. -/
theorem keeps_removeRecord (r : PieceRecord) (s : State) : Keeps c s (removeRecord r s) := {}

/-- A retirement. -/
theorem keeps_retire (r : PieceRecord) (kind : FrameKind) (body : List Byte) (s : State) :
    Keeps c s (retire r kind body s) :=
  (keeps_removeRecord c r s).trans ((keeps_giveAtRetirement c _ _ _).trans (keeps_settleQuiet c _))

/-- A piece missed. -/
theorem keeps_missPiece (r : PieceRecord) (cause : FrankCause) (serial : Nat) (s : State) :
    Keeps c s (missPiece r cause serial s) :=
  (keeps_raise c _ s).trans (keeps_retire c _ _ _ _)

/-! ## The thresholds -/

/-- A held condition met by FUNDS_LOW. -/
theorem keeps_meetFundsLow (s : State) : Keeps c s (meetFundsLow s) := by
  unfold meetFundsLow
  split
  next held => exact keeps_enterQuiescing c s fun none => by simp [held] at none
  next => exact .refl c s

/-- A mark of the thresholds set or cleared. -/
theorem keeps_marks (funds : Funds) (s : State) : Keeps c s { s with funds := funds } :=
  {}

/-- The warn level judged. -/
theorem keeps_judgeLow (r : Configuration) (s : State) : Keeps c s (judgeLow r s) := by
  unfold judgeLow
  split
  · split
    · exact .refl c s
    · exact (keeps_marks c _ s).trans ((keeps_raise c _ _).trans (keeps_meetFundsLow c _))
  · exact keeps_marks c _ s

/-- The take floor judged. -/
theorem keeps_judgeOut (r : Configuration) (s : State) : Keeps c s (judgeOut r s) := by
  unfold judgeOut
  split
  · split
    · exact .refl c s
    · exact (keeps_marks c _ s).trans (keeps_raise c _ _)
  · exact keeps_marks c _ s

/-- The funds levels judged. -/
theorem keeps_judgeFunds (s : State) : Keeps c s (judgeFunds s) := by
  unfold judgeFunds
  split
  · exact .refl c s
  · exact (keeps_judgeLow c _ s).trans (keeps_judgeOut c _ _)

/-- The spoil level of 40 judged. -/
theorem keeps_judgeWarn (s : State) : Keeps c s (judgeWarn s) := by
  unfold judgeWarn
  split
  · split
    · exact .refl c s
    · exact (keeps_marks c _ s).trans (keeps_raise c _ _)
  · exact keeps_marks c _ s

/-- The spoil level of 48 judged. -/
theorem keeps_judgeFull (s : State) : Keeps c s (judgeFull s) := by
  unfold judgeFull
  split
  · split
    · exact .refl c s
    · exact (keeps_marks c _ s).trans (keeps_raise c _ _)
  · exact keeps_marks c _ s

/-- The spoil levels judged. -/
theorem keeps_judgeSpoils (before : Nat) (s : State) : Keeps c s (judgeSpoils before s) := by
  unfold judgeSpoils
  split
  · exact .refl c s
  · exact (keeps_judgeWarn c s).trans (keeps_judgeFull c _)

/-! ## Store writes and the Verify Unit's requests -/

/-- A pledge returned. -/
theorem keeps_lowerPledge (postage : Nat) (s : State) : Keeps c s (lowerPledge postage s) :=
  keeps_marks c _ s

/-- A write admitted. -/
theorem keeps_enqueueWrite (w : StoreWrite) (s : State) : Keeps c s (enqueueWrite w s) :=
  keeps_marks c _ s

/-- A slot write asked for. -/
theorem keeps_requestSlotWrite (r : PieceRecord) (w : StoreWrite) (s : State) : Keeps c s (requestSlotWrite r w s) := by
  unfold requestSlotWrite
  split
  · exact keeps_missPiece c _ _ _ s
  · exact (keeps_changeRecord c _ _ s).trans (keeps_enqueueWrite c _ _)

/-- A verify state changed. -/
theorem keeps_setFranked (serial : Nat) (state : VerifyState) (reason : Option SpoilReason) (s : State) :
    Keeps c s (setFranked serial state reason s) :=
  { units := fun ⟨queue, buffer, recent, unmatched⟩ => ⟨queue, buffer, by simpa [setFranked] using recent, unmatched⟩ }

/-- A verdict spoil asked for. -/
theorem keeps_requestVerdict (e : FrankedEntry) (reason : SpoilReason) (s : State) :
    Keeps c s (requestVerdict e reason s) := by
  unfold requestVerdict
  split
  · exact (keeps_setFranked c _ _ _ s).trans (keeps_enqueueWrite c _ _)
  · exact keeps_setFranked c _ _ _ s

/-- A piece number held in the unmatched list. -/
theorem keeps_holdUnmatched (p : PieceNo) (s : State) : Keeps c s (holdUnmatched p s) := by
  unfold holdUnmatched
  split
  next room =>
    exact { units := fun ⟨queue, buffer, recent, _⟩ => ⟨queue, buffer, recent, by simpa using room⟩ }
  next => exact .refl c s

/-- An unmatched spoil asked for. -/
theorem keeps_requestUnmatched (p : PieceNo) (s : State) : Keeps c s (requestUnmatched p s) := by
  unfold requestUnmatched
  split
  · exact keeps_enqueueWrite c _ s
  · exact keeps_holdUnmatched c p s

/-- One waiting spoil asked for again. -/
theorem keeps_retryOne (s t : State) (h : retryOne s = some t) : Keeps c s t := by
  unfold retryOne at h
  split at h
  · split at h
    · obtain rfl := Option.some.inj h
      exact keeps_requestVerdict c _ _ s
    · split at h
      next p rest waiting =>
        obtain rfl := Option.some.inj h
        have left : Keeps c s { s with verify := { s.verify with unmatched := rest } } :=
          { units := fun ⟨queue, buffer, recent, unmatched⟩ => ⟨queue, buffer, recent, by simp [waiting] at unmatched ⊢; omega⟩ }
        exact left.trans (keeps_enqueueWrite c _ _)
      next => cases h
  · cases h

/-- The notice of an open place. -/
theorem keeps_placeNotice (s : State) : Keeps c s (placeNotice s) :=
  placeNotice_induction (Keeps c) (fun s _ => .refl c s) (fun s t _ h k => (keeps_retryOne c s t h).trans k) s

/-- A message to the engine. -/
theorem keeps_sendEngine (m : EngineMessage) (s : State) : Keeps c s (sendEngine m s) := by
  unfold sendEngine
  split
  next room =>
    exact { units := fun ⟨_, buffer, recent, unmatched⟩ => ⟨by simpa using room, buffer, recent, unmatched⟩ }
  next => exact .refl c s

/-! ## Answers -/

/-- An answer. -/
theorem keeps_answer (v : Verdict) (further : Further) (d : AnswerData) (s : State) : Keeps c s (answer v further d s) := {}

/-! ## The Rate Store -/

/-- A change of the Rate Store. -/
theorem keeps_rates (rates : RateStore) (s : State) : Keeps c s { s with rates := rates } :=
  {}

/-- A commit of a bank accepted. -/
theorem keeps_acceptCommit (n : SlotNo) (s : State) : Keeps c s (acceptCommit n s) := by
  unfold acceptCommit
  split
  · exact keeps_rates c _ s
  · exact (keeps_rates c _ s).trans (keeps_raise c _ _)

/-- No bank for a piece. -/
theorem keeps_noBank (s : State) : Keeps c s (noBank s).1 := by
  unfold noBank
  split
  · exact .refl c s
  · exact (keeps_rates c _ s).trans (keeps_raise c _ _)

/-- The bank asked for without regard to a switch point. -/
theorem keeps_askActive (s : State) : Keeps c s (askActive s).1 := by
  unfold askActive
  split
  · exact keeps_rates c _ s
  · exact keeps_noBank c s

/-- The bank asked for. -/
theorem keeps_askBank (p : PieceNo) (s : State) : Keeps c s (askBank p s).1 := by
  unfold askBank
  split
  · exact keeps_askActive c s
  · split
    · split
      · exact (keeps_rates c _ s).trans ((keeps_raise c _ _).trans (keeps_rates c _ _))
      · split
        · exact keeps_rates c _ s
        · exact keeps_noBank c s
    · exact keeps_askActive c s

/-! ## The Intake Unit -/

/-- A take. -/
theorem keeps_take (r : PieceRecord) (s : State) : Keeps c s (take r s) := by
  have added : Keeps c s (addRecord r s) := {}
  have dropped : ∀ u, Keeps c u (dropPassing r.piece u) := fun u =>
    { intake := fun ⟨jobs, passing, duplicates⟩ => ⟨jobs, (List.length_filter_le _ _).trans passing, duplicates⟩ }
  exact added.trans ((dropped _).trans (keeps_feedHoldRule c _))

/-- A list cut to its newest entries holds no more than the limit. -/
theorem keepNewest_length {α : Type} (limit : Nat) (l : List α) : (keepNewest limit l).length ≤ limit := by
  simp only [keepNewest, List.length_drop]
  omega

/-- An entry of the passing list. -/
theorem keeps_enterPassing (n : Notice) (s : State) : Keeps c s (enterPassing n s) :=
  { intake := fun ⟨jobs, _, duplicates⟩ => ⟨jobs, by simpa [enterPassing, Nat.lt_succ_iff] using keepNewest_length 7 _, duplicates⟩ }

/-- The decision on an original. -/
theorem keeps_decideOriginal (n : Notice) (s : State) : Keeps c s (decideOriginal n s).1 := by
  unfold decideOriginal
  split
  · have asked := keeps_askBank c n.piece s
    split
    next t b e =>
      rw [e] at asked
      exact asked.trans (keeps_take c _ _)
    next t e =>
      rw [e] at asked
      exact asked.trans (keeps_enterPassing c _ _)
  · exact keeps_enterPassing c _ s

/-- The decision on a release. -/
theorem keeps_decideReleased (n : Notice) (s : State) : Keeps c s (decideReleased n s).1 := by
  unfold decideReleased
  split
  · exact .refl c s
  · split
    · have asked := keeps_askBank c n.piece s
      split
      next t b e =>
        rw [e] at asked
        exact asked.trans (keeps_take c _ _)
      next t e =>
        rw [e] at asked
        exact asked
    · exact .refl c s

/-- The decision on a notice. -/
theorem keeps_decideNotice (n : Notice) (s : State) : Keeps c s (decideNotice n s).1 := by
  unfold decideNotice
  split
  · exact { intake := fun ⟨jobs, passing, _⟩ => ⟨jobs, passing, saturate_le _ _⟩ }
  · split
    · exact keeps_decideOriginal c n s
    · exact keeps_decideReleased c n s

/-- A JOB OPEN. -/
theorem keeps_openJob (n : Nat) (params : JobParams) (s : State) : Keeps c s (openJob n params s) := by
  have closing := openJob_closingSound n params s
  unfold openJob
  split
  next found =>
    unfold reopenJob
    split
    · exact keeps_raise c _ s
    next free =>
      exact { intake := fun ⟨jobs, passing, duplicates⟩ => ⟨by simpa using jobs, passing, duplicates⟩
              closing := by simpa [openJob, reopenJob, found, free] using closing }
  next unknown =>
    unfold placeJob
    split
    next room =>
      exact { intake := fun ⟨_, passing, duplicates⟩ => ⟨by simpa using room, passing, duplicates⟩
              closing := by simpa [openJob, placeJob, unknown, room] using closing }
    next full =>
      split
      next old reusable =>
        exact { intake := fun ⟨jobs, passing, duplicates⟩ => ⟨by simpa using jobs, passing, duplicates⟩
                closing := by simpa [openJob, placeJob, unknown, full, reusable] using closing }
      next => exact keeps_raise c _ s

/-- A record set CLOSED. -/
theorem keeps_markClosed (n : Nat) (s : State) : Keeps c s (markClosed n s) := by
  have closing := markClosed_closingSound n s
  unfold markClosed
  split
  next isOpen =>
    exact { intake := fun ⟨jobs, passing, duplicates⟩ => ⟨by simpa using jobs, passing, duplicates⟩
            closing := by simpa [markClosed, isOpen] using closing }
  next => exact .refl c s

/-- A JOB CLOSE. -/
theorem keeps_closeJob (n : Nat) (s : State) : Keeps c s (closeJob n s) := by
  unfold closeJob
  split
  next held =>
    exact (keeps_markClosed c n s).trans (keeps_enterQuiescing c _ fun none => by simp [held] at none)
  next => exact keeps_markClosed c n s

end Sys2Proof.Machine
end

section
/-! The commands, each as a chain of the operations of the section before; and what is read off them: the queue, the bounds, the
closing order, the event sets, and what stands until a restart. -/

set_option Elab.async false

namespace Sys2Proof.Machine

variable (c : Instr)

/-! ## The belt -/

/-- A checkpoint event. -/
theorem keeps_atCheckpoint (p : PieceNo) (which : Checkpoints → Position) (act : PieceRecord → State → State)
    (acts : ∀ r s, Keeps c s (act r s)) (s : State) : Keeps c s (atCheckpoint p which act s) := by
  unfold atCheckpoint
  split
  · exact .refl c s
  · split
    · exact acts _ s
    · exact .refl c s

/-- A forward pulse. -/
theorem keeps_pulseForward (s : State) : Keeps .encoderPulseForward s (pulseForward s) :=
  { position := fun other => absurd rfl other }

/-- The cutoff of a record. -/
theorem keeps_cutoffOf (r : PieceRecord) (s : State) : Keeps c s (cutoffOf r s) := by
  unfold cutoffOf
  split
  · exact keeps_changeRecord c _ _ s
  · exact .refl c s

/-- The commit checkpoint of a record. -/
theorem keeps_commitOf (r : PieceRecord) (s : State) : Keeps c s (commitOf r s) := by
  unfold commitOf
  split
  · unfold commitRated
    split
    · exact (keeps_changeRecord c _ _ s).trans (keeps_enqueueWrite c _ _)
    · exact (keeps_lowerPledge c _ s).trans ((keeps_judgeFunds c _).trans (keeps_missPiece c _ _ _ _))
  · exact keeps_missPiece c _ _ _ s
  · exact keeps_missPiece c _ _ _ s
  · exact keeps_missPiece c _ _ _ s
  all_goals exact .refl c s

/-- The print checkpoint of a record. -/
theorem keeps_printOf (r : PieceRecord) (s : State) : Keeps c s (printOf r s) := by
  unfold printOf
  split
  · split
    · have struck : ∀ serial, Keeps c s (strike serial s) := fun serial => {}
      exact (struck _).trans (keeps_sendEngine c _ _)
    · exact .refl c s
  all_goals exact .refl c s

/-- An entry that leaves the print path. -/
theorem keeps_dropPath (serial : Nat) (s : State) : Keeps c s (dropPath serial s) := {}

/-- The result deadline of a record. -/
theorem keeps_deadlineOf (r : PieceRecord) (s : State) : Keeps c s (deadlineOf r s) := by
  unfold deadlineOf
  split
  · exact (keeps_dropPath c _ s).trans ((keeps_sendEngine c _ _).trans (keeps_requestSlotWrite c _ _ _))
  all_goals exact .refl c s

/-! ## The imprint port -/

/-- An imprint settled. -/
theorem keeps_settle (e : PathEntry) (w : StoreWrite) (s : State) : Keeps c s (settle e w s) := by
  unfold settle
  split
  · exact keeps_dropPath c _ s
  · split
    · exact (keeps_dropPath c _ s).trans (keeps_requestSlotWrite c _ _ _)
    · exact keeps_dropPath c _ s

/-- An IMPRINT DONE. -/
theorem keeps_resultDone (serial : Nat) (s : State) : Keeps c s (resultDone serial s) := by
  unfold resultDone
  split
  · exact keeps_raise c _ s
  · split
    · exact keeps_settle c _ _ s
    · exact (keeps_sendEngine c _ s).trans (keeps_settle c _ _ _)

/-- An IMPRINT FAILED. -/
theorem keeps_resultFailed (serial : Nat) (s : State) : Keeps c s (resultFailed serial s) := by
  unfold resultFailed
  split
  · exact keeps_raise c _ s
  · exact keeps_settle c _ _ s

/-- A completed message. -/
theorem keeps_completeMessage (octets : List Byte) (s : State) : Keeps c s (completeMessage octets s) := by
  unfold completeMessage
  split
  · unfold takeResult
    split
    · exact keeps_resultDone c _ s
    · exact keeps_resultFailed c _ s
  · exact .refl c s

/-- A receiver of the imprint port that holds no more than a message. -/
theorem keeps_engineReceiver (receiver : Receiver) (s : State)
    (short : bufferLength s.imprint.receiver ≤ 29 → bufferLength receiver ≤ 29) :
    Keeps c s { s with imprint := { s.imprint with receiver := receiver } } :=
  { units := fun ⟨queue, buffer, recent, unmatched⟩ => ⟨queue, short buffer, recent, unmatched⟩ }

/-- The end of a message. -/
theorem keeps_endMessage (s : State) : Keeps c s (endMessage s) :=
  keeps_engineReceiver c _ s fun _ => Nat.zero_le _

/-- A receiver holds no more than its longest frame (R2). -/
theorem receiveStep_bounded (limit : Nat) (r : Receiver) (sym : Symbol) (h : bufferLength r ≤ limit) :
    bufferLength (receiveStep limit r sym).1 ≤ limit := by
  cases r with
  | receiving buffer =>
    cases sym with
    | octet b =>
      simp only [receiveStep]
      split_ifs with room
      · simpa [bufferLength] using room
      · simp [bufferLength]
    | _ => simp [receiveStep, bufferLength]
  | _ => cases sym <;> simp [receiveStep, bufferLength]

/-- A receiver after an abandoned reception holds no octet (R2). -/
theorem receiverAfter_empty (why : AbandonCause) : bufferLength (receiverAfter why) = 0 := by
  cases why <;> rfl

/-- What IMPRINT_MESSAGE_DISCARDED brings. -/
theorem keeps_engineInput (input : EngineInput) (s : State) : Keeps c s (engineInput input s) := by
  unfold engineInput
  split
  next why => exact keeps_engineReceiver c _ s fun _ => by simp [receiverAfter_empty]
  · exact (keeps_endMessage c s).trans (keeps_completeMessage c _ _)
  next sym =>
    have received := keeps_engineReceiver c (receiveStep 29 s.imprint.receiver sym).1 s (receiveStep_bounded 29 _ sym)
    unfold engineSymbol
    dsimp only
    split
    · exact received
    · exact received
    · exact received.trans (keeps_completeMessage c _ _)

/-- A message sent. -/
theorem keeps_messageSent (s : State) : Keeps c s (messageSent s) := by
  unfold messageSent
  split
  · exact .refl c s
  next m rest queue =>
    exact { units := fun ⟨sending, buffer, recent, unmatched⟩ =>
              ⟨by simp [queue] at sending ⊢; omega, buffer, recent, unmatched⟩ }

/-! ## Verdicts and messages of the line -/

/-- A verdict. -/
theorem keeps_takeVerdict (p : PieceNo) (station : Nat) (v : VerifyVerdict) (s : State) :
    Keeps c s (takeVerdict p station v s) := by
  unfold takeVerdict
  split
  · split
    · unfold matchedVerdict
      split
      · split
        · exact keeps_setFranked c _ _ _ s
        · exact keeps_requestVerdict c _ _ s
      · exact .refl c s
    · unfold unmatchedVerdict
      split
      · exact .refl c s
      · exact (keeps_raise c _ s).trans (keeps_requestUnmatched c _ _)
  · exact .refl c s

/-- A report. -/
theorem keeps_reportTo (p : PieceNo) (change : PieceRecord → PieceRecord) (s : State) : Keeps c s (reportTo p change s) := by
  unfold reportTo
  split
  · exact .refl c s
  · exact keeps_changeRecord c _ _ s

/-- A message at the block that owns its kind. -/
theorem keeps_hand (m : LineMessage) (s : State) : Keeps c s (hand m s) := by
  cases m with
  | notice | forwardedOnly => exact .refl c s
  | measureReport | addressReport => exact keeps_reportTo c _ _ s
  | jobOpen => exact keeps_openJob c _ _ s
  | jobClose => exact keeps_closeJob c _ s
  | rateSwitch => exact keeps_rates c _ s
  | verifyReport => exact keeps_takeVerdict c _ _ _ s

/-! ## Loop-in -/

/-- A Loop Port changed within its bounds. -/
theorem keeps_loop (l : LoopPort) (s : State) (bounded : s.loop.Bounded → l.Bounded) : Keeps c s { s with loop := l } :=
  { loop := bounded }

/-- A frame that joins a forward queue with a free place. -/
theorem keeps_enqueueForward (f : Frame) (held : Bool) (s : State) (room : s.loop.forward.length < 4) :
    Keeps c s (enqueueForward f held s) :=
  keeps_loop c _ s fun ⟨receiver, run, bad, _, own⟩ => ⟨receiver, run, bad, by simpa using room, own⟩

/-- A held notice released. -/
theorem keeps_releaseHeld (took : Bool) (s : State) : Keeps c s (releaseHeld took s) :=
  keeps_loop c _ s fun ⟨receiver, run, bad, forward, own⟩ => ⟨receiver, run, bad, by simpa using forward, own⟩

/-- Tests 4 to 6 of R5 with a free place in the forward queue. -/
theorem keeps_forwardAndHand (f : Frame) (s : State) (room : s.loop.forward.length < 4) :
    Keeps c s (forwardAndHand f s) := by
  have joined := fun held => keeps_enqueueForward c f held s room
  unfold forwardAndHand
  split
  · exact joined false
  · exact (joined false).trans (keeps_countBad c _)
  · exact (joined true).trans ((keeps_decideNotice c _ _).trans (keeps_releaseHeld c _ _))
  · exact (joined false).trans (keeps_hand c _ _)

/-- A good frame disposed of. -/
theorem keeps_dispose (f : Frame) (s : State) : Keeps c s (dispose f s) := by
  unfold dispose
  split
  · unfold disposeInRing
    split_ifs with own hop room
    · exact .refl c s
    · exact .refl c s
    · exact (keeps_forwardAndHand c _ s room).trans (keeps_arbitrate c _)
    · exact keeps_raise c _ s
  · unfold disposeAside
    split_ifs
    · exact .refl c s
    · exact .refl c s
    · split
      · exact .refl c s
      · exact keeps_countBad c s
      · exact keeps_decideNotice c _ s
      · exact keeps_hand c _ s

/-- The end of reception. -/
theorem keeps_endReception (octets : List Byte) (s : State) : Keeps c s (endReception octets s) := by
  have ended : Keeps c s { s with loop := { s.loop with receiver := .outside, idleRun := 0, lost := false } } :=
    keeps_loop c _ s fun ⟨_, _, bad, forward, own⟩ => ⟨Nat.zero_le _, Nat.zero_le _, bad, forward, own⟩
  unfold endReception
  split
  · split
    · exact ended
    · exact ended.trans (keeps_countBad c _)
  all_goals exact ended

/-- The octets of a completed frame. -/
theorem keeps_completeOctets (octets : List Byte) (s : State) : Keeps c s (completeOctets octets s) := by
  unfold completeOctets
  split
  · exact keeps_countBad c s
  · exact keeps_dispose c _ s

/-- A whole frame. -/
theorem keeps_receiveFrame (f : Frame) (s : State) : Keeps c s (receiveFrame f s) := by
  unfold receiveFrame
  split_ifs
  · exact .refl c s
  · exact (keeps_endReception c _ s).trans (keeps_countBad c _)
  · exact (keeps_endReception c _ s).trans (keeps_dispose c _ _)

/-- The octets of BAD_FRAME. -/
theorem keeps_receiveOctets (octets : List Byte) (s : State) : Keeps c s (receiveOctets octets s) := by
  unfold receiveOctets
  split
  · exact .refl c s
  · exact (keeps_endReception c _ s).trans (keeps_completeOctets c _ _)

/-- A symbol. -/
theorem keeps_receiveSymbol (sym : Symbol) (s : State) : Keeps c s (receiveSymbol sym s) := by
  unfold receiveSymbol
  split
  · exact .refl c s
  · have run : s.loop.idleRun ≤ 255 → (seeSymbol sym s).loop.idleRun ≤ 255 := fun _ => by
      cases sym with
      | idle => exact saturate_le _ _
      | _ => exact Nat.zero_le _
    have received := keeps_loop c { (seeSymbol sym s).loop with receiver := (receiveStep 46 s.loop.receiver sym).1 } s
      fun ⟨receiver, idle, bad, forward, own⟩ => ⟨receiveStep_bounded 46 _ sym receiver, run idle, bad, forward, own⟩
    dsimp only
    split
    · exact received
    · exact received.trans (keeps_countBad c _)
    · exact received.trans (keeps_completeOctets c _ _)

/-- A frame abandoned. -/
theorem keeps_abandonFrame (why : AbandonCause) (s : State) : Keeps c s (abandonFrame why s) := by
  have run : runAfter why ≤ 255 := by cases why <;> decide
  unfold abandonFrame
  split
  · exact .refl c s
  · refine (keeps_loop c _ s fun ⟨_, _, bad, forward, own⟩ => ?_).trans (keeps_countBad c _)
    exact ⟨by simp [receiverAfter_empty], run, bad, forward, own⟩

/-- The loop lost. -/
theorem keeps_loseLoop (s : State) : Keeps c s (loseLoop s) := by
  unfold loseLoop
  split
  · exact .refl c s
  · refine (keeps_loop c _ s fun ⟨_, _, bad, forward, own⟩ => ?_).trans (keeps_raise c _ _)
    exact ⟨Nat.zero_le _, Nat.zero_le _, bad, forward, own⟩

/-! ## Loop-out and the relay -/

/-- What left the controller last is no more than an output. -/
theorem keeps_out (out : Outputs) (s : State) : Keeps c s { s with out := out } := {}

/-- A forwarded frame sent. -/
theorem keeps_forwardSent (s : State) : Keeps c s (forwardSent s) := by
  unfold forwardSent
  split
  next e rest _ queue =>
    refine ((keeps_loop c _ s fun ⟨receiver, run, bad, forward, own⟩ => ?_).trans (keeps_out c _ _)).trans
      (keeps_arbitrate c _)
    exact ⟨receiver, run, bad, by simp [queue] at forward ⊢; omega, own⟩
  all_goals exact .refl c s

/-- An own frame sent. -/
theorem keeps_ownSent (s : State) : Keeps c s (ownSent s) := by
  unfold ownSent
  split
  next e rest _ queue =>
    refine ((keeps_loop c _ s fun ⟨receiver, run, bad, forward, own⟩ => ?_).trans (keeps_out c _ _)).trans
      (keeps_arbitrate c _)
    exact ⟨receiver, run, bad, forward, by simp [queue] at own ⊢; omega⟩
  all_goals exact .refl c s

/-- A Loop Port whose relay, switching period, attach state or receiver changes, the receiver to none. -/
theorem keeps_relay (relay : Relay) (switching : Option SwitchCause) (attach : Attach) (s : State) : Keeps c s { s with
    loop := { s.loop with relay := relay, switching := switching, attach := attach, receiver := .outside } } :=
  keeps_loop c _ s fun ⟨_, run, bad, forward, own⟩ => ⟨Nat.zero_le _, run, bad, forward, own⟩

/-- The switch into the ring begins. -/
theorem keeps_joinSwitchStart (s : State) : Keeps c s (joinSwitchStart s) := by
  unfold joinSwitchStart
  split
  · exact keeps_relay c _ _ _ s
  · exact .refl c s

/-- The switch into the ring is over. -/
theorem keeps_joinSwitchComplete (s : State) : Keeps c s (joinSwitchComplete s) := by
  have run : ∀ u, Keeps c u (beginRunning u) := fun u => by
    unfold beginRunning
    split
    · exact .refl c u
    next on => exact { halted := fun m => absurd m on }
  unfold joinSwitchComplete
  split
  · exact ((keeps_relay c _ _ _ s).trans (keeps_out c _ _)).trans ((run _).trans (keeps_raise c _ _))
  · exact .refl c s

/-- The switch out of the ring begins. -/
theorem keeps_leaveSwitchStart (s : State) : Keeps c s (leaveSwitchStart s) := by
  unfold leaveSwitchStart
  split
  · exact keeps_relay c _ _ _ s
  · exact .refl c s

/-- The switch out of the ring is over. -/
theorem keeps_leaveSwitchComplete (s : State) : Keeps c s (leaveSwitchComplete s) := by
  have left : ∀ u : State, Keeps c u { u with mode := if u.mode = .halted then .halted else .standby } := fun u => {}
  unfold leaveSwitchComplete
  split
  · exact (keeps_relay c _ _ _ s).trans ((left _).trans (keeps_raise c _ _))
  · exact .refl c s

/-- The relay has settled after a reset. -/
theorem keeps_relaySettled (s : State) : Keeps c s (relaySettled s) := by
  unfold relaySettled
  split
  · exact keeps_loop c _ s id
  · exact .refl c s

/-! ## The rating -/

/-- The rating in flight changed. -/
theorem keeps_engine (engine : Option RatingInFlight) (s : State) : Keeps c s { s with engine := engine } :=
  {}

/-- A rating started. -/
theorem keeps_startRating (s : State) : Keeps c s (startRating s) := by
  unfold startRating
  split
  · exact .refl c s
  · split
    · exact .refl c s
    · exact (keeps_engine c _ s).trans (keeps_changeRecord c _ _ _)

/-- A rating fault applied. -/
theorem keeps_applyFault (r : PieceRecord) (fault : RatingFault) (serviceClass : Nat) (s : State) :
    Keeps c s (applyFault r fault serviceClass s) := by
  have noted : Keeps c s { s with tracker := { s.tracker with
      lastFault := some { piece := r.piece, fault := fault, serviceClass := serviceClass } } } := {}
  exact noted.trans ((keeps_raise c _ _).trans (keeps_retire c _ _ _ _))

/-- A result delivered. -/
theorem keeps_deliverResult (s : State) : Keeps c s (deliverResult s) := by
  unfold deliverResult
  split
  · exact .refl c s
  · have idle := keeps_engine c none s
    dsimp only
    split
    · exact idle
    · split
      · refine idle.trans ?_
        unfold applyResult
        split
        · exact keeps_applyFault c _ _ _ _
        · split
          · exact keeps_applyFault c _ _ _ _
          · exact (keeps_marks c _ _).trans ((keeps_changeRecord c _ _ _).trans (keeps_judgeFunds c _))
      · exact idle

/-! ## The read commands -/

/-- The snapshot latch changed. -/
theorem keeps_latch (latch : Option Latch) (s : State) : Keeps c s { s with port := { s.port with latch := latch } } :=
  {}

/-- READ_FUNDS. -/
theorem keeps_readFunds (s : State) : Keeps c s (readFunds s) := by
  unfold readFunds
  split
  · exact keeps_answer c _ _ _ s
  · exact keeps_answer c _ _ _ s
  · exact (keeps_latch c _ s).trans (keeps_answer c _ _ _ _)
  · exact (keeps_latch c _ s).trans (keeps_answer c _ _ _ _)

/-- READ_FUNDS_NEXT. -/
theorem keeps_readFundsNext (s : State) : Keeps c s (readFundsNext s) := by
  unfold readFundsNext
  split
  · exact keeps_answer c _ _ _ s
  · split
    · exact (keeps_latch c _ s).trans (keeps_answer c _ _ _ _)
    · exact keeps_answer c _ _ _ s

/-- READ_EVENTS: what is reported is pending. -/
theorem keeps_readEvents (s : State) : Keeps c s (readEvents s) := by
  have reported : Keeps c s { s with port := { s.port with lastReported := s.port.events } } :=
    { port := fun ⟨sorted, _⟩ => ⟨sorted, fun _ h => h⟩ }
  exact reported.trans (keeps_answer c _ _ _ _)

/-- A set in its one form less another set is in its one form. -/
theorem dropEvents_sorted (gone set : List Event) (sorted : set = allEvents.filter (fun e => set.contains e)) :
    dropEvents gone set = allEvents.filter (fun e => (dropEvents gone set).contains e) := by
  have left : dropEvents gone set = allEvents.filter (fun e => !gone.contains e && set.contains e) := by
    unfold dropEvents
    conv_lhs => rw [sorted]
    rw [List.filter_filter]
  rw [left]
  refine List.filter_congr fun e _ => ?_
  rw [← left, Bool.eq_iff_iff]
  simp [dropEvents, List.mem_filter, and_comm]

/-- CLEAR_EVENTS. -/
theorem keeps_clearEvents (s : State) : Keeps .clearEvents s (clearEvents s) := by
  have cleared : Keeps .clearEvents s { s with port := { s.port with events := s.remaining, lastReported := [] } } :=
    { port := fun ⟨sorted, _⟩ => ⟨dropEvents_sorted _ _ sorted, by simp⟩
      events := fun other => absurd rfl other }
  exact cleared.trans (keeps_answer _ _ _ _ _)

/-- READ_LINE_COUNTS. -/
theorem keeps_readLineCounts (s : State) : Keeps c s (readLineCounts s) := by
  have counted : Keeps c s
      { s with loop := { s.loop with badFrames := 0 }, intake := { s.intake with duplicates := 0 } } :=
    { loop := fun ⟨receiver, run, _, forward, own⟩ => ⟨receiver, run, Nat.zero_le _, forward, own⟩
      intake := fun ⟨jobs, passing, _⟩ => ⟨jobs, passing, Nat.zero_le _⟩ }
  exact counted.trans (keeps_answer c _ _ _ _)

/-! ## The setup, operation and store commands -/

/-- CONFIGURE: it is accepted in SETUP alone. -/
theorem keeps_configure (r : Configuration) (s : State) : Keeps (.configure r) s (configure r s) := by
  unfold configure
  split
  · exact keeps_answer _ _ _ _ s
  next setup =>
    have setup := not_not.mp setup
    split
    · exact keeps_answer _ _ _ _ s
    · exact keeps_answer _ _ _ _ s
    · exact keeps_answer _ _ _ _ s
    · split
      · exact keeps_answer _ _ _ _ s
      · have stored : Keeps (.configure r) s { s with mode := .standby, port := { s.port with config := some r } } :=
          { config := fun other => absurd rfl (other r)
            halted := fun halted => by simp [setup] at halted }
        exact (stored.trans (keeps_judgeFunds _ _)).trans (keeps_answer _ _ _ _ _)

/-- LOAD_BANK_BLOCK. -/
theorem keeps_loadBank (slot index : Nat) (part : BankPart) (s : State) : Keeps c s (loadBank slot index part s) := by
  unfold loadBank
  split
  · exact keeps_answer c _ _ _ s
  next n _ =>
    split
    · have loaded := (keeps_rates c (s.rates.setSlot n ((s.rates.slot n).load index part)) s).trans
        (keeps_answer c .accepted (.setup none s.mode) .nothing _)
      unfold loadInto
      split
      · exact loaded
      · exact loaded
      · exact loaded
      all_goals exact keeps_answer c _ _ _ s
    · exact keeps_answer c _ _ _ s

/-- COMMIT_BANK. -/
theorem keeps_commitBank (slot : Nat) (s : State) : Keeps c s (commitBank slot s) := by
  unfold commitBank
  split
  · exact keeps_answer c _ _ _ s
  · split
    · exact keeps_answer c _ _ _ s
    · split
      · exact keeps_answer c _ _ _ s
      · exact (keeps_acceptCommit c _ s).trans (keeps_answer c _ _ _ _)

/-- JOIN. -/
theorem keeps_joinRing (s : State) : Keeps c s (joinRing s) := by
  unfold joinRing
  split
  · exact (keeps_loop c { s.loop with attach := .joining } s id).trans (keeps_answer c _ _ _ _)
  · exact keeps_answer c _ _ _ s

/-- LEAVE. -/
theorem keeps_leaveRing (s : State) : Keeps c s (leaveRing s) := by
  unfold leaveRing
  split
  · exact (keeps_loop c { s.loop with attach := .leaving } s id).trans (keeps_answer c _ _ _ _)
  · exact keeps_answer c _ _ _ s

/-- QUIESCE: it acts in RUNNING alone. -/
theorem keeps_quiesceHead (q : QuiesceArg) (s : State) : Keeps c s (quiesceHead q s) := by
  unfold quiesceHead
  split
  next running =>
    have enters := (keeps_enterQuiescing c s fun _ => by simp [running]).trans
      (keeps_answer c .accepted (.operation (enterQuiescing s).mode (enterQuiescing s).loop.attach) .nothing _)
    have holds : ∀ x, Keeps c s (holdCondition x s) := fun x =>
      { halted := fun halted => by simp [running] at halted }
    unfold quiesceRunning
    split
    · exact enters
    · split_ifs
      · exact keeps_answer c _ _ _ s
      · exact enters
      · exact (holds _).trans (keeps_answer c _ _ _ _)
    · split_ifs
      · exact enters
      · exact (holds _).trans (keeps_answer c _ _ _ _)
    · exact keeps_answer c _ _ _ s
  next => exact keeps_answer c _ _ _ s

/-- RESUME: not in HALTED. -/
theorem keeps_resumeHead (s : State) : Keeps c s (resumeHead s) := by
  unfold resumeHead
  split
  next may =>
    have resumed : Keeps c s { s with mode := .running, intake := { s.intake with quiesce := .none } } :=
      { halted := fun halted => by simp [halted] at may }
    exact resumed.trans (keeps_answer c _ _ _ _)
  next => exact keeps_answer c _ _ _ s

/-- SHORT_TRANSFER. -/
theorem keeps_shortTransfer (type : CommandType) (s : State) : Keeps c s (shortTransfer type s) := by
  cases type with
  | _ => exact keeps_answer c _ _ _ s

/-- CREDIT. -/
theorem keeps_creditHead (amount : Nat) (s : State) : Keeps c s (creditHead amount s) := by
  unfold creditHead
  split
  · exact keeps_answer c _ _ _ s
  · exact (keeps_enqueueWrite c _ s).trans (keeps_answer c _ _ _ _)

/-- DRAIN_SPOIL. -/
theorem keeps_drainHead (sequence : Nat) (s : State) : Keeps c s (drainHead sequence s) := by
  unfold drainHead
  split
  · exact keeps_answer c _ _ _ s
  · exact (keeps_enqueueWrite c _ s).trans (keeps_answer c _ _ _ _)

/-! ## Completions -/

/-- The next piece count is within its 32 bits (R119). -/
theorem nextCount_le (free pc : Nat) : nextCount free pc ≤ 4294967295 := by
  unfold nextCount
  split
  · omega
  · have := (Config.pieceCountPast free).isLt
    omega

/-- A slot filled leaves the counts and the spoil list (R127). -/
theorem Store.Bounded.fill {st : Store} (o : OpenImprint) (h : st.Bounded) : (st.fill o).Bounded := by
  unfold Store.fill
  split
  · exact h
  · split
    · exact h
    · exact h

/-- A slot emptied leaves the counts and the spoil list (R128, R129). -/
theorem Store.Bounded.vacate {st : Store} (serial : Nat) (h : st.Bounded) : (st.vacate serial).Bounded := by
  unfold Store.vacate
  split_ifs
  all_goals exact h

/-- An append keeps the spoil list and the overflow totals within their bounds (R121). -/
theorem Store.Bounded.append {st : Store} (reason : SpoilReason) (piece : PieceNo) (serial value job dateCode : Option Nat)
    (h : st.Bounded) : (st.append reason piece serial value job dateCode).Bounded := by
  obtain ⟨pc, credits, spoils, sequence, overflowCount, overflowValue⟩ := h
  unfold Store.append
  split_ifs with room
  · exact ⟨pc, credits, by simpa using room.1, room.2, overflowCount, overflowValue⟩
  · exact ⟨pc, credits, spoils, sequence, saturate_le _ _, saturate_le _ _⟩

/-- A write keeps the bounds of the non-volatile content (R124). -/
theorem Store.Bounded.apply {st : Store} (free : Nat) (w : StoreWrite) (h : st.Bounded) : (st.apply free w).Bounded := by
  have bounds := h
  obtain ⟨pc, credits, spoils, sequence, overflowCount, overflowValue⟩ := bounds
  cases w with
  | commit => exact Store.Bounded.fill _ ⟨nextCount_le _ _, credits, spoils, sequence, overflowCount, overflowValue⟩
  | close => exact h.vacate _
  | spoilSlot serial reason =>
    simp only [Store.apply, Store.applySpoilSlot]
    split
    · exact (h.vacate _).append _ _ _ _ _ _
    · exact h
  | spoilVerdict | spoilUnmatched => exact h.append _ _ _ _ _ _
  | credit => exact ⟨pc, saturate_le _ _, spoils, sequence, overflowCount, overflowValue⟩
  | drain => exact ⟨pc, credits, by simp [Store.apply]; omega, sequence, overflowCount, overflowValue⟩

/-- A COMMIT completed with its print checkpoint reached. -/
theorem keeps_commitLate (r : PieceRecord) (o : OpenImprint) (s : State) : Keeps c s (commitLate r o s) := by
  have numbered : Keeps c s (changeRecord r.tag (fun x => { x with serial := some o.serial })
      { s with freeCount := s.freeCount + 1 }) := {}
  unfold commitLate
  dsimp only
  split
  · exact numbered.trans ((keeps_placeNotice c _).trans (keeps_requestSlotWrite c _ _ _))
  · exact numbered.trans ((keeps_requestSlotWrite c _ _ _).trans (keeps_placeNotice c _))

variable {c}

/-- A write applied, by the row of its completion. -/
theorem keeps_completeWrite (complete : isWriteComplete c = true) (w : StoreWrite) (rest : List StoreWrite) (s : State) :
    Keeps c s (completeWrite w rest s) :=
  { bounded := fun h => h.apply _ w, store := fun other => by simp [complete] at other }

/-- A COMMIT completed. -/
theorem keeps_commitComplete (complete : isWriteComplete c = true) (postage : Nat) (piece : PieceNo) (job dateCode : Nat)
    (rest : List StoreWrite) (s : State) : Keeps c s (commitComplete postage piece job dateCode rest s) := by
  have applied := (keeps_completeWrite complete (.commit postage piece job dateCode) rest s).trans
    (keeps_lowerPledge c postage _)
  unfold commitComplete
  dsimp only
  split
  · exact applied.trans (keeps_placeNotice c _)
  · refine applied.trans ?_
    split
    · exact keeps_commitLate c _ _ _
    · have path : ∀ (entries : List PathEntry) (u : State),
          Keeps c u { u with imprint := { u.imprint with path := entries } } := fun entries u => {}
      exact (keeps_changeRecord c _ _ _).trans
        ((path _ _).trans ((keeps_sendEngine c _ _).trans (keeps_placeNotice c _)))

/-- The recent franked list holds 32 entries at most (R158). -/
theorem joinFranked_length (e : FrankedEntry) (recent : List FrankedEntry) (h : recent.length ≤ 32) :
    (joinFranked e recent).length ≤ 32 := by
  unfold joinFranked
  split_ifs with room removable
  · simpa using room
  · obtain ⟨x, mem, may⟩ := List.any_eq_true.mp removable
    have shorter := List.length_eraseP_of_mem mem may
    simp only [List.length_append, shorter, List.length_singleton]
    omega
  · exact h

/-- A CLOSE completed. -/
theorem keeps_closeComplete (complete : isWriteComplete c = true) (serial : Nat) (rest : List StoreWrite) (s : State) :
    Keeps c s (closeComplete serial rest s) := by
  have applied := keeps_completeWrite complete (.close serial) rest s
  unfold closeComplete
  dsimp only
  split
  · exact applied.trans (keeps_placeNotice c _)
  next r _ =>
    have joined : ∀ u : State, Keeps c u
        { u with verify := { u.verify with recent := joinFranked (frankedEntry r serial) u.verify.recent } } := fun u =>
      { units := fun ⟨queue, buffer, recent, unmatched⟩ => ⟨queue, buffer, joinFranked_length _ _ recent, unmatched⟩ }
    exact applied.trans ((joined _).trans ((keeps_retire c _ _ _ _).trans (keeps_placeNotice c _)))

/-- A SPOIL from a slot completed. -/
theorem keeps_spoilSlotComplete (complete : isWriteComplete c = true) (serial : Nat) (reason : SpoilReason)
    (rest : List StoreWrite) (s : State) : Keeps c s (spoilSlotComplete serial reason rest s) := by
  have applied := (keeps_completeWrite complete (.spoilSlot serial reason) rest s).trans
    (keeps_judgeSpoils c s.store.spoils.length _)
  refine (applied.trans ?_).trans (keeps_placeNotice c _)
  split
  · unfold continueConversion
    split
    · exact keeps_marks c _ _
    · exact .refl c _
  · unfold finishSpoiled
    split
    · exact .refl c _
    · exact keeps_retire c _ _ _ _

/-- A completion that applies its write, judges the spoil levels and gives the notice of the open place. -/
theorem keeps_spoilWriteComplete (complete : isWriteComplete c = true) (w : StoreWrite) (rest : List StoreWrite) (s : State) :
    Keeps c s (placeNotice (judgeSpoils s.store.spoils.length (completeWrite w rest s))) :=
  (keeps_completeWrite complete w rest s).trans ((keeps_judgeSpoils c _ _).trans (keeps_placeNotice c _))

/-- A verdict spoil completed. -/
theorem keeps_spoilVerdictComplete (complete : isWriteComplete c = true) (piece : PieceNo) (serial value job : Nat)
    (reason : SpoilReason) (rest : List StoreWrite) (s : State) :
    Keeps c s (spoilVerdictComplete piece serial value job reason rest s) :=
  (keeps_completeWrite complete _ rest s).trans
    ((keeps_judgeSpoils c _ _).trans ((keeps_setFranked c _ _ _ _).trans (keeps_placeNotice c _)))

/-- A CREDIT completed. -/
theorem keeps_creditComplete (complete : isWriteComplete c = true) (amount : Nat) (rest : List StoreWrite) (s : State) :
    Keeps c s (creditComplete amount rest s) :=
  (keeps_completeWrite complete _ rest s).trans ((keeps_judgeFunds c _).trans (keeps_placeNotice c _))

/-! ## Failure and the start-up read -/

variable (c)

/-- A failed write at the block that asked for it. -/
theorem keeps_failWrite (w : StoreWrite) (s : State) : Keeps c s (failWrite s w) := by
  have slot : ∀ serial, Keeps c s (failSlotWrite serial s) := fun serial => by
    unfold failSlotWrite
    split
    · exact .refl c s
    · exact keeps_missPiece c _ _ _ s
  cases w with
  | commit postage piece =>
    have judged := (keeps_lowerPledge c postage s).trans (keeps_judgeFunds c _)
    simp only [failWrite, failCommit]
    split
    · exact judged
    · exact judged.trans (keeps_missPiece c _ _ _ _)
  | close serial => exact slot serial
  | spoilSlot serial reason =>
    simp only [failWrite]
    split
    · exact .refl c s
    · exact slot serial
  | spoilVerdict => exact keeps_setFranked c _ _ _ s
  | spoilUnmatched => exact keeps_holdUnmatched c _ s
  | credit | drain => exact .refl c s

/-- The whole queue failed in order. -/
theorem keeps_failWrites (writes : List StoreWrite) (s : State) : Keeps c s (writes.foldl failWrite s) := by
  induction writes generalizing s with
  | nil => exact .refl c s
  | cons w rest ih => exact (keeps_failWrite c w s).trans (ih _)

/-- A failed store write. -/
theorem keeps_failStore (s : State) : Keeps c s (failStore s) := by
  unfold failStore
  split
  · exact .refl c s
  · exact (keeps_marks c _ s).trans ((keeps_halt c _).trans ((keeps_raise c _ _).trans (keeps_failWrites c _ _)))

/-- The start-up read. -/
theorem keeps_startupRead (good : Bool) (s : State) :
    Keeps c s (if s.funds.startup = .reading then (if good then readGood s else readFailed s) else s) := by
  split_ifs
  · exact keeps_marks c _ s
  · exact (keeps_marks c _ s).trans ((keeps_halt c _).trans (keeps_raise c _ _))
  · exact .refl c s

/-! ## Every command but the restarts -/

/-- Every command but a restart keeps what `Keeps` says. -/
theorem effect_keeps (s : State) (stays : isRestart c = false) : Keeps c s (effect c s) := by
  cases c with
  | powerUp | resetPin | headReset | powerLoss => cases stays
  | unknownKindFrame | pieceNotice | releasedNotice | measureReport | addressReport | jobOpen | jobClose | rateSwitch
  | feedHold | feedResume | frankReport | verifyReport => exact keeps_receiveFrame _ _ s
  | resetRelaySettled => exact keeps_relaySettled _ s
  | frameAbandoned => exact keeps_abandonFrame _ _ s
  | badFrame => exact keeps_receiveOctets _ _ s
  | forwardFrameSent => exact keeps_forwardSent _ s
  | ownFrameSent => exact keeps_ownSent _ s
  | joinSwitchStart => exact keeps_joinSwitchStart _ s
  | joinSwitchComplete => exact keeps_joinSwitchComplete _ s
  | leaveSwitchStart => exact keeps_leaveSwitchStart _ s
  | leaveSwitchComplete => exact keeps_leaveSwitchComplete _ s
  | loopLost => exact keeps_loseLoop _ s
  | loopReturn | idleReceived => exact keeps_receiveSymbol _ _ s
  | encoderPulseForward => exact keeps_pulseForward s
  | encoderPulseReverse => exact keeps_raise _ _ s
  | cutoff => exact keeps_atCheckpoint _ _ _ _ (keeps_cutoffOf _) s
  | commitCheckpoint => exact keeps_atCheckpoint _ _ _ _ (keeps_commitOf _) s
  | printCheckpoint => exact keeps_atCheckpoint _ _ _ _ (keeps_printOf _) s
  | resultDeadline => exact keeps_atCheckpoint _ _ _ _ (keeps_deadlineOf _) s
  | ratingStart => exact keeps_startRating _ s
  | ratingResult => exact keeps_deliverResult _ s
  | commitWriteComplete =>
    simp only [effect]
    split
    · exact keeps_commitComplete rfl _ _ _ _ _ s
    · exact .refl _ s
  | closeWriteComplete =>
    simp only [effect]
    split
    · exact keeps_closeComplete rfl _ _ s
    · exact .refl _ s
  | spoilSlotWriteComplete =>
    simp only [effect]
    split
    · exact keeps_spoilSlotComplete rfl _ _ _ s
    · exact .refl _ s
  | spoilVerdictWriteComplete =>
    simp only [effect]
    split
    · exact keeps_spoilVerdictComplete rfl _ _ _ _ _ _ s
    · exact .refl _ s
  | spoilUnmatchedWriteComplete =>
    simp only [effect]
    split
    · exact keeps_spoilWriteComplete rfl _ _ s
    · exact .refl _ s
  | creditWriteComplete =>
    simp only [effect]
    split
    · exact keeps_creditComplete rfl _ _ s
    · exact .refl _ s
  | drainWriteComplete =>
    simp only [effect]
    split
    · exact keeps_spoilWriteComplete rfl _ _ s
    · exact .refl _ s
  | storeWriteFailed => exact keeps_failStore _ s
  | startupReadComplete good => exact keeps_startupRead _ good s
  | imprintDone => exact (keeps_endMessage _ s).trans (keeps_resultDone _ _ _)
  | imprintFailed => exact (keeps_endMessage _ s).trans (keeps_resultFailed _ _ _)
  | imprintMessageDiscarded => exact keeps_engineInput _ _ s
  | imprintMessageSent => exact keeps_messageSent _ s
  | configure r => exact keeps_configure r s
  | loadBankBlock => exact keeps_loadBank _ _ _ _ s
  | commitBank => exact keeps_commitBank _ _ s
  | join => exact keeps_joinRing _ s
  | leave => exact keeps_leaveRing _ s
  | quiesce => exact keeps_quiesceHead _ _ s
  | resume => exact keeps_resumeHead _ s
  | readFunds => exact keeps_readFunds _ s
  | readFundsNext => exact keeps_readFundsNext _ s
  | readPiece index =>
    simp only [effect, readPiece]
    split
    all_goals exact keeps_answer _ _ _ _ s
  | readBankState | readLastFault | unknownCommand => exact keeps_answer _ _ _ _ s
  | readEvents => exact keeps_readEvents _ s
  | clearEvents => exact keeps_clearEvents s
  | readSpoilOldest =>
    simp only [effect, readSpoilOldest]
    split
    all_goals exact keeps_answer _ _ _ _ s
  | readLineCounts => exact keeps_readLineCounts _ s
  | credit => exact keeps_creditHead _ _ s
  | drainSpoil => exact keeps_drainHead _ _ s
  | shortTransfer => exact keeps_shortTransfer _ _ s

/-! ## What every step keeps -/

/-- The store after a reset or a loss of power: as it was, or with the front write applied whole (R136). -/
theorem cutStore_cases (s : State) :
    cutStore s = s.store ∨ ∃ w rest, s.funds.writes = w :: rest ∧ cutStore s = s.store.apply s.freeCount w := by
  unfold cutStore
  split
  · exact .inl rfl
  next w rest queue =>
    split
    · exact .inr ⟨w, rest, queue, rfl⟩
    · exact .inl rfl

/-- A cut store is within its bounds. -/
theorem cutStore_bounded (s : State) (h : s.store.Bounded) : (cutStore s).Bounded := by
  rcases cutStore_cases s with same | ⟨w, rest, -, applied⟩
  · exact same ▸ h
  · exact applied ▸ h.apply _ w

/-- A restart leaves the blocks at their reset values, but for a relay that may be switching, the store, and the outputs
(R15, R136, R174). -/
structure Restarted (s t : State) : Prop where
  mode : t.mode = .setup
  loop : ∃ switching, t.loop = { LoopPort.initial with switching := switching } ∧ (switching = none ∨ switching = some .reset)
  intake : t.intake = State.reset.intake
  tracker : t.tracker = State.reset.tracker
  rates : t.rates = State.reset.rates
  engine : t.engine = none
  store : t.store = s.store ∨ t.store = cutStore s
  funds : t.funds = State.reset.funds
  path : t.imprint.path = []
  sending : t.imprint.sendQueue.length ≤ 1
  receiver : t.imprint.receiver = .outside
  verify : t.verify = State.reset.verify
  port : t.port = State.reset.port
  pending : t.pending = s.pending

/-- A power-up, a loss of power and both resets restart the controller. -/
theorem effect_restarted {c : Instr} (restart : isRestart c = true) (s : State) : Restarted s (effect c s) := by
  have switching : ∀ l, resetSwitching l = none ∨ resetSwitching l = some .reset := fun l => by
    unfold resetSwitching
    split
    · exact .inr rfl
    · exact .inl rfl
  have empty : ∀ u : State, u.funds.writes = [] → cutStore u = u.store := fun u none => by simp [cutStore, none]
  cases c with
  | powerUp =>
    by_cases on : s.powered = true
    · have cut : powerUp s = { resetHead (losePower s) with loop := LoopPort.initial } := by simp [powerUp, on]
      have again : cutStore (losePower s) = cutStore s := empty _ rfl
      simp only [effect, cut]
      exact ⟨rfl, ⟨none, rfl, .inl rfl⟩, rfl, rfl, rfl, rfl, .inr again, rfl, rfl, le_rfl, rfl, rfl, rfl, rfl⟩
    · have cut : powerUp s = { resetHead s with loop := LoopPort.initial } := by simp [powerUp, on]
      simp only [effect, cut]
      exact ⟨rfl, ⟨none, rfl, .inl rfl⟩, rfl, rfl, rfl, rfl, .inr rfl, rfl, rfl, le_rfl, rfl, rfl, rfl, rfl⟩
  | resetPin | headReset =>
    exact ⟨rfl, ⟨_, rfl, switching s.loop⟩, rfl, rfl, rfl, rfl, .inr rfl, rfl, rfl, le_rfl, rfl, rfl, rfl, rfl⟩
  | powerLoss =>
    exact ⟨rfl, ⟨none, rfl, .inl rfl⟩, rfl, rfl, rfl, rfl, .inr rfl, rfl, rfl, Nat.zero_le _, rfl, rfl, rfl, rfl⟩
  | _ => cases restart

/-- Every list and count is within its bound after a restart. -/
theorem Restarted.bounded {s t : State} (h : Restarted s t) (b : s.Bounded) : t.Bounded := by
  obtain ⟨-, -, store, -⟩ := b
  refine ⟨?_, ?_, ?_, ?_⟩
  · obtain ⟨switching, loop, -⟩ := h.loop
    rw [loop]
    exact ⟨Nat.zero_le _, Nat.zero_le _, Nat.zero_le _, Nat.zero_le _, Nat.zero_le _⟩
  · rw [h.intake]
    exact ⟨Nat.zero_le _, Nat.zero_le _, Nat.zero_le _⟩
  · rcases h.store with same | cut
    · exact same ▸ store
    · exact cut ▸ cutStore_bounded s store
  · unfold State.UnitsBounded
    rw [h.receiver, h.verify]
    exact ⟨h.sending.trans (by decide), Nat.zero_le _, Nat.zero_le _, Nat.zero_le _⟩

/-- Settles O4: every operation keeps the bounds and the closing order, and a restart sets them anew. -/
theorem boundsKept : Obligations.BoundsKept := by
  refine ⟨fun s t => step_keeps (P := State.Bounded) (fun s rest h => h) fun c s h => ?_,
    fun s t => step_keeps (P := fun s => s.intake.ClosingSound) (fun s rest h => h) fun c s h => ?_, closing_length⟩
  · cases restart : isRestart c with
    | true => exact (effect_restarted restart s).bounded h
    | false =>
      have keeps := effect_keeps c s restart
      obtain ⟨loop, intake, store, units⟩ := h
      exact ⟨keeps.loop loop, keeps.intake intake, keeps.bounded store, keeps.units units⟩
  · cases restart : isRestart c with
    | true =>
      rw [(effect_restarted restart s).intake]
      exact ⟨List.nodup_nil, List.nodup_nil, by simp [State.reset]⟩
    | false => exact (effect_keeps c s restart).closing h

/-- Settles O9: a raise, READ_EVENTS and CLEAR_EVENTS are all that touches the event sets, and a restart empties them. -/
theorem eventSetKept : Obligations.EventSetKept := fun s t =>
  step_keeps (P := fun s => s.port.Sound) (fun s rest h => h) fun c s h => by
    cases restart : isRestart c with
    | true =>
      rw [(effect_restarted restart s).port]
      exact ⟨by decide, by simp [State.reset]⟩
    | false => exact (effect_keeps c s restart).port h

/-- No command changes the queue of commands. -/
theorem effect_pending (c : Instr) (s : State) : (effect c s).pending = s.pending := by
  cases restart : isRestart c with
  | true => exact (effect_restarted restart s).pending
  | false => exact (effect_keeps c s restart).pending

/-- Settles O2: a step idles on an empty queue by definition, and no effect touches the queue. -/
theorem queueOnlyTakenFrom : Obligations.QueueOnlyTakenFrom := by
  refine ⟨fun s empty => by simp [step, empty], fun c s t done => ?_⟩
  exact exec_relates (R := fun s t => t.pending = s.pending) (fun _ => rfl) (effect_pending c) done

/-- Settles O12: the store, the position and the pending events are fields of what every other command keeps. -/
theorem storeChangesOnlyAtCompletions : Obligations.StoreChangesOnlyAtCompletions := fun c s t stays done => by
  have keeps : Keeps c s t := exec_relates (Keeps.refl c) (fun s => effect_keeps c s stays) done
  exact ⟨keeps.store, keeps.position, keeps.events⟩

/-- CONFIGURE in any mode but SETUP answers and no more (R170). -/
theorem configure_config (r : Configuration) (s : State) (other : s.mode ≠ .setup) :
    (configure r s).port.config = s.port.config := by
  simp [configure, other]

/-- Settles O11: only CONFIGURE writes the configuration record, and in SETUP, where there is none; and HALTED, which holds no
quiesce condition, is left by a restart alone. -/
theorem configurationAndHaltedLast : Obligations.ConfigurationAndHaltedLast := fun c s t stays sound done => by
  obtain ⟨⟨-, -, -, modes⟩, -, -⟩ := sound
  obtain ⟨-, -, held, -, unconfigured, -⟩ := modes
  have keeps : Keeps c s t := exec_relates (Keeps.refl c) (fun s => effect_keeps c s stays) done
  refine ⟨fun x present => ?_, fun halted => ?_⟩
  · have configured : s.mode ≠ .setup := fun setup => by simp [unconfigured setup] at present
    by_cases row : ∃ r, c = .configure r
    · obtain ⟨r, rfl⟩ := row
      rcases exec_next done with rfl | ⟨-, rfl⟩
      · exact present
      · exact (configure_config r s configured).trans present
    · exact (keeps.config fun r e => row ⟨r, e⟩).trans present
  · have free : s.intake.quiesce = .none := by
      by_contra some
      simp [halted] at held
      exact some held
    exact (keeps.halted halted free).1

end Sys2Proof.Machine
end

section
/-! The invariants right after power-up. -/

set_option Elab.async false

namespace Sys2Proof.Machine

/-- The lists are empty and the counts 0 at reset. -/
theorem reset_bounded : State.reset.Bounded :=
  ⟨⟨Nat.zero_le _, Nat.zero_le _, Nat.zero_le _, Nat.zero_le _, Nat.zero_le _⟩,
    ⟨Nat.zero_le _, Nat.zero_le _, Nat.zero_le _⟩,
    ⟨Nat.zero_le _, Nat.zero_le _, Nat.zero_le _, Nat.zero_le _, Nat.zero_le _, Nat.zero_le _⟩,
    ⟨(by decide : (1 : Nat) ≤ 8), Nat.zero_le _, Nat.zero_le _, Nat.zero_le _⟩⟩

/-- The piece table is empty at reset. -/
theorem reset_trackerSound : State.reset.tracker.Sound :=
  ⟨List.nodup_nil, by simp [State.reset], List.nodup_nil⟩

/-- Both slots are EMPTY at reset. -/
theorem reset_ratesSound : State.reset.rates.Sound := by
  have blank : BankSlot.blank.Sound := by simp [BankSlot.Sound, BankSlot.blank]
  exact ⟨blank, blank, by decide, by simp [needsActive, State.reset, BankSlot.blank],
    by simp [needsActive, State.reset, BankSlot.blank]⟩

/-- The account is empty at reset (log 19). -/
theorem reset_fundsBalanced : State.reset.FundsBalanced :=
  ⟨reset_trackerSound, ⟨List.nodup_nil, by simp [State.reset, commitsOf]⟩, rfl, rfl, le_rfl⟩

/-- The store and its queue are empty at reset (log 19). -/
theorem reset_storeSound : State.reset.StoreSound :=
  ⟨(by decide : (0 : Nat) ≤ 6), (by decide : (0 : Nat) ≤ 2), ⟨Nat.zero_le _, Nat.zero_le _⟩, List.Pairwise.nil,
    by simp [State.reset, Store.fresh]⟩

/-- At reset the head is in SETUP at bypass without a configuration record. -/
theorem reset_tableBounded : State.reset.TableBounded := by
  refine ⟨⟨⟨rfl, .inl rfl⟩, ?_, .inl rfl, ?_⟩, by simp [State.reset], le_rfl⟩
  · simp [LoopPort.QueuesSound, State.reset, LoopPort.initial]
  · simp [State.ModeHolds, State.reset]

/-- No imprint is outstanding at reset. -/
theorem reset_settled : State.reset.Settled := by
  refine ⟨⟨List.nodup_nil, by simp [State.reset]⟩, ⟨List.Perm.subperm .rfl, fun _ _ => .rfl⟩, .rfl, by simp [State.reset],
    by simp [State.reset]⟩

/-- Settles O3: each invariant in turn, on the reset values. -/
theorem invariantsHoldAtReset : Obligations.InvariantsHoldAtReset := by
  refine ⟨reset_bounded, ⟨reset_trackerSound, ⟨List.nodup_nil, by simp [State.reset]⟩, reset_trackerSound, by simp [State.reset]⟩,
    ⟨reset_trackerSound, reset_ratesSound, fun n => by cases n <;> rfl, by simp [State.reset]⟩, reset_fundsBalanced,
    reset_storeSound, ⟨by decide, by simp [State.reset]⟩, reset_tableBounded, reset_settled,
    ⟨List.nodup_nil, by simp [State.reset, Store.fresh, Store.occupied], by simp [State.reset]⟩,
    ⟨List.nodup_nil, List.nodup_nil, by simp [State.reset]⟩⟩

end Sys2Proof.Machine
end

section
/-! The tables a command works on: the piece table, the passing list, the slots of the Rate Store, the store and its queue, the
print path. Most operations leave them; the others are listed once, so that an invariant of the tables is judged on these alone. -/

set_option Elab.async false

namespace Sys2Proof.Machine

/-! ## What most operations leave -/

/-- Two Loop Ports that stand to the ring alike. -/
def LoopPort.standsAs (l k : LoopPort) : Prop :=
  k.attach = l.attach ∧ k.relay = l.relay ∧ k.switching = l.switching

/-- Two states with the same tables, in the same head mode, with the same configuration record and standing to the ring alike. -/
structure SameTables (s t : State) : Prop where
  pieces : t.tracker.pieces = s.tracker.pieces := by simp
  nextTag : t.tracker.nextTag = s.tracker.nextTag := by simp
  passing : t.intake.passing = s.intake.passing := by simp
  engine : t.engine = s.engine := by simp
  slot0 : t.rates.slot0 = s.rates.slot0 := by simp
  slot1 : t.rates.slot1 = s.rates.slot1 := by simp
  store : t.store = s.store := by simp
  pledged : t.funds.pledged = s.funds.pledged := by simp
  writes : t.funds.writes = s.funds.writes := by simp
  startup : t.funds.startup = s.funds.startup := by simp
  path : t.imprint.path = s.imprint.path := by simp
  mode : t.mode = s.mode := by simp
  quiesce : t.intake.quiesce = s.intake.quiesce := by simp
  config : t.port.config = s.port.config := by simp
  ring : s.loop.standsAs t.loop := by simp [LoopPort.standsAs]

namespace SameTables

variable {s t u : State}

/-- Nothing changed. -/
theorem refl (s : State) : SameTables s s := {}

/-- A chain of two. -/
theorem trans (h : SameTables s t) (k : SameTables t u) : SameTables s u where
  pieces := k.pieces.trans h.pieces
  nextTag := k.nextTag.trans h.nextTag
  passing := k.passing.trans h.passing
  engine := k.engine.trans h.engine
  slot0 := k.slot0.trans h.slot0
  slot1 := k.slot1.trans h.slot1
  store := k.store.trans h.store
  pledged := k.pledged.trans h.pledged
  writes := k.writes.trans h.writes
  startup := k.startup.trans h.startup
  path := k.path.trans h.path
  mode := k.mode.trans h.mode
  quiesce := k.quiesce.trans h.quiesce
  config := k.config.trans h.config
  ring := by
    obtain ⟨attach, relay, switching⟩ := h.ring
    obtain ⟨attach', relay', switching'⟩ := k.ring
    exact ⟨attach'.trans attach, relay'.trans relay, switching'.trans switching⟩

end SameTables

/-- A Loop Port changed that stands to the ring as before. -/
theorem same_loop {l : LoopPort} {s : State} (ring : s.loop.standsAs l) : SameTables s { s with loop := l } :=
  { ring := ring }

/-- The commands of the attach changes and the settling of the relay change the Loop Port, each by its test (R11, R13, R15). -/
inductive RelayMove (s : State) : LoopPort → Prop
  | join (mode : s.mode = .standby) (attach : s.loop.attach = .bypass) : RelayMove s { s.loop with attach := .joining }
  | joinStart (attach : s.loop.attach = .joining) (still : s.loop.switching = none) :
    RelayMove s { s.loop with relay := .through, switching := some .join, receiver := .outside }
  | leave (mode : s.mode = .quiet) (attach : s.loop.attach = .attached) : RelayMove s { s.loop with attach := .leaving }
  | leaveStart (attach : s.loop.attach = .leaving) (still : s.loop.switching = none) (forward : s.loop.forward = [])
      (own : s.loop.own = []) (idle : s.loop.transmitter = .idle) :
    RelayMove s { s.loop with relay := .bypass, switching := some .leave, receiver := .outside }
  | settled (reset : s.loop.switching = some .reset) : RelayMove s { s.loop with switching := none }

/-- An event raised. -/
theorem same_raise (e : Event) (s : State) : SameTables s (raise e s) := {}

/-- An answer. -/
theorem same_answer (v : Verdict) (further : Further) (d : AnswerData) (s : State) : SameTables s (answer v further d s) := {}

/-- The arbiter's choice. -/
theorem same_arbitrate (s : State) : SameTables s (arbitrate s) := {}

/-- A switch point recorded. -/
theorem same_recordSwitch (point : SwitchPoint) (s : State) : SameTables s (recordSwitch point s) := {}

/-- The end of reception (R2). -/
theorem same_endReception (octets : List Byte) (s : State) : SameTables s (endReception octets s) := by
  obtain ⟨receiver, idleRun, lost, badFrames, ended⟩ := endReception_eq octets s
  rw [ended]
  exact {}

/-- A JOB OPEN writes the job table alone (R30, R31). -/
theorem same_openJob (n : Nat) (params : JobParams) (s : State) : SameTables s (openJob n params s) := by
  unfold openJob
  split
  · unfold reopenJob
    split
    all_goals exact {}
  · unfold placeJob
    split
    · exact {}
    · split
      all_goals exact {}

/-- The arbiter after a frame is sent (R6, R9). -/
theorem same_forwardSent (s : State) : SameTables s (forwardSent s) := by
  unfold forwardSent
  split
  all_goals exact {}

/-- The arbiter after an own frame is sent (R9). -/
theorem same_ownSent (s : State) : SameTables s (ownSent s) := by
  unfold ownSent
  split
  all_goals exact {}

/-- A symbol before it completes a frame (R2). -/
theorem same_seeSymbol (sym : Symbol) (receiver : Receiver) (s : State) : SameTables s
    { seeSymbol sym s with loop := { (seeSymbol sym s).loop with receiver := receiver } } := {}

/-- The loop lost (R14). -/
theorem same_loseLoop (s : State) : SameTables s (loseLoop s) := by
  unfold loseLoop
  split
  · exact .refl s
  · have quiet : SameTables s { s with loop := { s.loop with receiver := .outside, idleRun := 0, lost := true } } :=
      same_loop ⟨rfl, rfl, rfl⟩
    exact quiet.trans (same_raise _ _)

/-- A forward pulse (R52). -/
theorem same_pulseForward (s : State) : SameTables s (pulseForward s) := {}

/-- The commands of the service port that change no table: the reads, and the transfers that are no command. -/
def isPlainService : Instr → Bool
  | .readFunds | .readFundsNext | .readPiece _ | .readBankState | .readEvents | .clearEvents
  | .readSpoilOldest | .readLineCounts | .readLastFault | .unknownCommand _ | .shortTransfer _ => true
  | _ => false

/-- They answer, and change the event sets, the latch or the counts (chapter 10). -/
theorem same_service {c : Instr} (plain : isPlainService c = true) (s : State) : SameTables s (effect c s) := by
  have port : ∀ (events reported : List Event) (latch : Option Latch), SameTables s { s with port := { s.port with
      events := events, lastReported := reported, latch := latch } } := fun _ _ _ => {}
  cases c with
  | readFunds | readSpoilOldest =>
    simp only [effect, readFunds, readSpoilOldest]
    split
    · exact same_answer _ _ _ s
    · exact same_answer _ _ _ s
    all_goals exact (port _ _ _).trans (same_answer _ _ _ _)
  | readFundsNext =>
    simp only [effect, readFundsNext]
    split
    · exact same_answer _ _ _ s
    · split
      · exact (port _ _ _).trans (same_answer _ _ _ _)
      · exact same_answer _ _ _ s
  | readPiece =>
    simp only [effect, readPiece]
    split
    · exact same_answer _ _ _ s
    · exact same_answer _ _ _ s
  | readBankState | readLastFault | unknownCommand => exact same_answer _ _ _ s
  | readEvents | clearEvents => exact (port _ _ _).trans (same_answer _ _ _ _)
  | readLineCounts =>
    have counts : SameTables s
        { s with loop := { s.loop with badFrames := 0 }, intake := { s.intake with duplicates := 0 } } := {}
    exact counts.trans (same_answer _ _ _ _)
  | shortTransfer type =>
    cases type with
    | _ => exact same_answer _ _ _ s
  | _ => cases plain

/-! ## The operations on the tables -/

/-- What a relation between the states before and after a command needs to hold of every effect: it takes in states with the same
tables before and after, and it holds of each operation on the tables. -/
structure TableOps (R : State → State → Prop) : Prop where
  before : ∀ {s t u}, SameTables s t → R t u → R s u
  after : ∀ {s t u}, R s t → SameTables t u → R s u
  same : ∀ s, R s s
  notice : ∀ n s, R s (decideNotice n s).1
  measure : ∀ p part s, R s (reportTo p (measureInto part) s)
  address : ∀ p part s, R s (reportTo p (addressInto part) s)
  jobClose : ∀ n s, R s (closeJob n s)
  verdict : ∀ p station v s, R s (takeVerdict p station v s)
  cutoff : ∀ r s, r ∈ s.tracker.pieces → R s (cutoffOf r s)
  commit : ∀ r s, r ∈ s.tracker.pieces → R s (commitOf r s)
  print : ∀ r s, r ∈ s.tracker.pieces → R s (printOf r s)
  deadline : ∀ r s, r ∈ s.tracker.pieces → R s (deadlineOf r s)
  start : ∀ s, R s (startRating s)
  deliver : ∀ s, R s (deliverResult s)
  commitWrite : ∀ postage piece job dateCode rest s, s.funds.writes = .commit postage piece job dateCode :: rest →
    R s (commitComplete postage piece job dateCode rest s)
  closeWrite : ∀ serial rest s, s.funds.writes = .close serial :: rest → R s (closeComplete serial rest s)
  spoilSlotWrite : ∀ serial reason rest s, s.funds.writes = .spoilSlot serial reason :: rest →
    R s (spoilSlotComplete serial reason rest s)
  spoilVerdictWrite : ∀ piece serial value job reason rest s,
    s.funds.writes = .spoilVerdict piece serial value job reason :: rest →
    R s (spoilVerdictComplete piece serial value job reason rest s)
  spoilUnmatchedWrite : ∀ piece rest s, s.funds.writes = .spoilUnmatched piece :: rest →
    R s (spoilUnmatchedComplete piece rest s)
  creditWrite : ∀ amount rest s, s.funds.writes = .credit amount :: rest → R s (creditComplete amount rest s)
  drainWrite : ∀ sequence rest s, s.funds.writes = .drain sequence :: rest → R s (drainComplete sequence rest s)
  failure : ∀ s, R s (failStore s)
  readGood : ∀ s, s.funds.startup = .reading → R s (readGood s)
  readFailed : ∀ s, s.funds.startup = .reading → R s (readFailed s)
  done : ∀ serial s, R s (resultDone serial s)
  failed : ∀ serial s, R s (resultFailed serial s)
  load : ∀ slot index part s, R s (loadBank slot index part s)
  bank : ∀ slot s, R s (commitBank slot s)
  configure : ∀ r s, R s (configure r s)
  relay : ∀ l s, RelayMove s l → R s { s with loop := l }
  joined : ∀ s, R s (joinSwitchComplete s)
  left : ∀ s, R s (leaveSwitchComplete s)
  quiesce : ∀ q s, R s (quiesceHead q s)
  resume : ∀ s, R s (resumeHead s)
  credit : ∀ amount s, R s (creditHead amount s)
  drain : ∀ sequence s, R s (drainHead sequence s)
  restart : ∀ {s t}, Restarted s t → R s t

namespace TableOps

variable {R : State → State → Prop} (ops : TableOps R)

include ops

/-- States with the same tables. -/
theorem sameTables {s t : State} (h : SameTables s t) : R s t :=
  ops.after (ops.same s) h

/-- A message at the block that owns its kind (R5). -/
theorem hand (m : LineMessage) (s : State) : R s (hand m s) := by
  cases m with
  | notice | forwardedOnly => exact ops.same s
  | measureReport => exact ops.measure _ _ s
  | addressReport => exact ops.address _ _ s
  | jobOpen => exact ops.sameTables (same_openJob _ _ s)
  | jobClose => exact ops.jobClose _ s
  | rateSwitch => exact ops.sameTables (same_recordSwitch _ s)
  | verifyReport => exact ops.verdict _ _ _ s

/-- A good frame disposed of (R5, R8). -/
theorem dispose (f : Frame) (s : State) : R s (dispose f s) := by
  unfold Machine.dispose
  split
  · unfold disposeInRing
    split_ifs
    · exact ops.same s
    · exact ops.same s
    · have queued : ∀ f held, SameTables s (enqueueForward f held s) := fun f held => {}
      refine ops.after ?_ (same_arbitrate _)
      unfold forwardAndHand
      split
      · exact ops.sameTables (queued _ false)
      · exact ops.sameTables ((queued _ false).trans (same_loop ⟨rfl, rfl, rfl⟩))
      · exact ops.before (queued _ true) (ops.after (ops.notice _ _) (same_loop ⟨rfl, rfl, rfl⟩))
      · exact ops.before (queued _ false) (ops.hand _ _)
    · exact ops.sameTables (same_raise _ s)
  · unfold disposeAside
    split_ifs
    · exact ops.same s
    · exact ops.same s
    · split
      · exact ops.same s
      · exact ops.sameTables (same_loop ⟨rfl, rfl, rfl⟩)
      · exact ops.notice _ s
      · exact ops.hand _ s

/-- The octets of a completed frame (R3). -/
theorem completeOctets (octets : List Byte) (s : State) : R s (completeOctets octets s) := by
  unfold Machine.completeOctets
  split
  · exact ops.sameTables (same_loop ⟨rfl, rfl, rfl⟩)
  · exact ops.dispose _ s

/-- A whole frame (R2, R3). -/
theorem receiveFrame (f : Frame) (s : State) : R s (receiveFrame f s) := by
  unfold Machine.receiveFrame
  split_ifs
  · exact ops.same s
  · exact ops.sameTables ((same_endReception _ s).trans (same_loop ⟨rfl, rfl, rfl⟩))
  · exact ops.before (same_endReception _ s) (ops.dispose _ _)

/-- The octets of BAD_FRAME (R3). -/
theorem receiveOctets (octets : List Byte) (s : State) : R s (receiveOctets octets s) := by
  unfold Machine.receiveOctets
  split
  · exact ops.same s
  · exact ops.before (same_endReception _ s) (ops.completeOctets _ _)

/-- A symbol (R2). -/
theorem receiveSymbol (sym : Symbol) (s : State) : R s (receiveSymbol sym s) := by
  unfold Machine.receiveSymbol
  split
  · exact ops.same s
  · have seen := same_seeSymbol sym (receiveStep 46 s.loop.receiver sym).1 s
    dsimp only
    split
    · exact ops.sameTables seen
    · exact ops.sameTables (seen.trans (same_loop ⟨rfl, rfl, rfl⟩))
    · exact ops.before seen (ops.completeOctets _ _)

/-- A checkpoint event (R53). -/
theorem atCheckpoint (p : PieceNo) (which : Checkpoints → Position) (act : PieceRecord → State → State) (s : State)
    (acts : ∀ r s, r ∈ s.tracker.pieces → R s (act r s)) : R s (atCheckpoint p which act s) := by
  unfold Machine.atCheckpoint
  split
  · exact ops.same s
  next r found =>
    split
    · exact acts r s (List.mem_of_find?_eq_some found)
    · exact ops.same s

/-- A completed message (R148). -/
theorem completeMessage (octets : List Byte) (s : State) : R s (completeMessage octets s) := by
  unfold Machine.completeMessage
  split
  · unfold takeResult
    split
    · exact ops.done _ s
    · exact ops.failed _ s
  · exact ops.same s

/-- What IMPRINT_MESSAGE_DISCARDED brings (R148). -/
theorem engineInput (input : EngineInput) (s : State) : R s (engineInput input s) := by
  unfold Machine.engineInput
  split
  · exact ops.sameTables {}
  · exact ops.before (t := endMessage s) {} (ops.completeMessage _ _)
  · unfold engineSymbol
    have received : ∀ receiver, SameTables s { s with imprint := { s.imprint with receiver := receiver } } := fun _ => {}
    dsimp only
    split
    · exact ops.sameTables (received _)
    · exact ops.sameTables (received _)
    · exact ops.before (received _) (ops.completeMessage _ _)

/-- The relation holds of the effect of every command. -/
theorem effect (c : Instr) (s : State) : R s (effect c s) := by
  cases c with
  | powerUp => exact ops.restart (effect_restarted (c := .powerUp) rfl s)
  | resetPin => exact ops.restart (effect_restarted (c := .resetPin) rfl s)
  | headReset => exact ops.restart (effect_restarted (c := .headReset) rfl s)
  | powerLoss => exact ops.restart (effect_restarted (c := .powerLoss) rfl s)
  | unknownKindFrame | pieceNotice | releasedNotice | measureReport | addressReport | jobOpen | jobClose | rateSwitch
  | feedHold | feedResume | frankReport | verifyReport => exact ops.receiveFrame _ s
  | badFrame => exact ops.receiveOctets _ s
  | loopReturn | idleReceived => exact ops.receiveSymbol _ s
  | frameAbandoned =>
    simp only [Machine.effect, abandonFrame]
    split
    · exact ops.same s
    · exact ops.sameTables (same_loop ⟨rfl, rfl, rfl⟩)
  | resetRelaySettled =>
    simp only [Machine.effect, relaySettled]
    split
    next reset => exact ops.relay _ s (.settled reset)
    next => exact ops.same s
  | joinSwitchStart =>
    simp only [Machine.effect, Machine.joinSwitchStart]
    split
    next may =>
      obtain ⟨attach, still, -⟩ := may
      exact ops.relay _ s (.joinStart attach still)
    next => exact ops.same s
  | leaveSwitchStart =>
    simp only [Machine.effect, Machine.leaveSwitchStart]
    split
    next may =>
      obtain ⟨attach, still, forward, own, idle, -⟩ := of_decide_eq_true may
      exact ops.relay _ s (.leaveStart attach still forward own idle)
    next => exact ops.same s
  | join =>
    simp only [Machine.effect, joinRing]
    split
    next may => exact ops.after (ops.relay _ s (.join may.1 may.2)) (same_answer _ _ _ _)
    next => exact ops.sameTables (same_answer _ _ _ s)
  | leave =>
    simp only [Machine.effect, leaveRing]
    split
    next may => exact ops.after (ops.relay _ s (.leave may.1 may.2)) (same_answer _ _ _ _)
    next => exact ops.sameTables (same_answer _ _ _ s)
  | readFundsNext | readPiece | readFunds | readSpoilOldest | readBankState | readEvents | clearEvents
  | readLineCounts | readLastFault | unknownCommand | shortTransfer => exact ops.sameTables (same_service rfl s)
  | loopLost => exact ops.sameTables (same_loseLoop s)
  | encoderPulseForward => exact ops.sameTables (same_pulseForward s)
  | encoderPulseReverse => exact ops.sameTables (same_raise _ s)
  | forwardFrameSent => exact ops.sameTables (same_forwardSent s)
  | ownFrameSent => exact ops.sameTables (same_ownSent s)
  | joinSwitchComplete => exact ops.joined s
  | leaveSwitchComplete => exact ops.left s
  | cutoff => exact ops.atCheckpoint _ _ _ s ops.cutoff
  | commitCheckpoint => exact ops.atCheckpoint _ _ _ s ops.commit
  | printCheckpoint => exact ops.atCheckpoint _ _ _ s ops.print
  | resultDeadline => exact ops.atCheckpoint _ _ _ s ops.deadline
  | ratingStart => exact ops.start s
  | ratingResult => exact ops.deliver s
  | commitWriteComplete =>
    simp only [Machine.effect]
    split
    next queue => exact ops.commitWrite _ _ _ _ _ s queue
    next => exact ops.same s
  | closeWriteComplete =>
    simp only [Machine.effect]
    split
    next queue => exact ops.closeWrite _ _ s queue
    next => exact ops.same s
  | spoilSlotWriteComplete =>
    simp only [Machine.effect]
    split
    next queue => exact ops.spoilSlotWrite _ _ _ s queue
    next => exact ops.same s
  | spoilVerdictWriteComplete =>
    simp only [Machine.effect]
    split
    next queue => exact ops.spoilVerdictWrite _ _ _ _ _ _ s queue
    next => exact ops.same s
  | spoilUnmatchedWriteComplete =>
    simp only [Machine.effect]
    split
    next queue => exact ops.spoilUnmatchedWrite _ _ s queue
    next => exact ops.same s
  | creditWriteComplete =>
    simp only [Machine.effect]
    split
    next queue => exact ops.creditWrite _ _ s queue
    next => exact ops.same s
  | drainWriteComplete =>
    simp only [Machine.effect]
    split
    next queue => exact ops.drainWrite _ _ s queue
    next => exact ops.same s
  | storeWriteFailed => exact ops.failure s
  | startupReadComplete good =>
    simp only [Machine.effect]
    split_ifs with reading
    · exact ops.readGood s reading
    · exact ops.readFailed s reading
    · exact ops.same s
  | imprintDone => exact ops.before (t := endMessage s) {} (ops.done _ _)
  | imprintFailed => exact ops.before (t := endMessage s) {} (ops.failed _ _)
  | imprintMessageDiscarded => exact ops.engineInput _ s
  | imprintMessageSent =>
    simp only [Machine.effect, messageSent]
    split
    all_goals exact ops.sameTables {}
  | configure => exact ops.configure _ s
  | loadBankBlock => exact ops.load _ _ _ s
  | commitBank => exact ops.bank _ s
  | quiesce => exact ops.quiesce _ s
  | resume => exact ops.resume s
  | credit => exact ops.credit _ s
  | drainSpoil => exact ops.drain _ s

end TableOps

end Sys2Proof.Machine
end

section
/-! The Rate Store: its two slots seen from one of them, and the bank a piece is bound to (R80, R90 to R94). -/

set_option Elab.async false

namespace Sys2Proof.Machine

/-! ## A slot and the other one -/

/-- A slot stands soundly beside the other one (table of R80). -/
def BankSlot.soundBeside (a b : BankSlot) : Prop :=
  a.Sound ∧ b.Sound ∧ ¬(a.state = .active ∧ b.state = .active) ∧ needsActive a.state b.state ∧ needsActive b.state a.state

/-- The Rate Store is sound, seen from either slot. -/
theorem RateStore.sound_iff (b : RateStore) (n : SlotNo) : b.Sound ↔ (b.slot n).soundBeside (b.slot n.other) := by
  cases n with
  | zero => rfl
  | one =>
    unfold RateStore.Sound BankSlot.soundBeside
    simp only [RateStore.slot, SlotNo.other]
    tauto

@[simp] theorem SlotNo.other_ne (n : SlotNo) : n.other ≠ n := by
  cases n <;> decide

@[simp] theorem SlotNo.other_other (n : SlotNo) : n.other.other = n := by
  cases n <;> rfl

/-- There is no third slot. -/
theorem SlotNo.eq_or_other (m n : SlotNo) : m = n ∨ m = n.other := by
  cases m <;> cases n <;> decide

@[simp] theorem RateStore.slot_setSlot_same (b : RateStore) (n : SlotNo) (v : BankSlot) : (b.setSlot n v).slot n = v := by
  simp [slot_setSlot]

@[simp] theorem RateStore.slot_setSlot_other (b : RateStore) (n : SlotNo) (v : BankSlot) :
    (b.setSlot n v).slot n.other = b.slot n.other := by
  simp [slot_setSlot]

@[simp] theorem RateStore.slot_setSlot_of_other (b : RateStore) (n : SlotNo) (v : BankSlot) :
    (b.setSlot n.other v).slot n = b.slot n := by
  cases n <;> rfl

/-- The slots alone say what a slot is. -/
@[simp] theorem RateStore.slot_with (b : RateStore) (point : Option SwitchPoint) (mark : Bool) (n : SlotNo) :
    ({ b with switchPoint := point, notReady := mark } : RateStore).slot n = b.slot n := by
  cases n <;> rfl

/-- One slot replaced beside the other. -/
theorem RateStore.setSlot_sound (b : RateStore) (n : SlotNo) (v : BankSlot) :
    (b.setSlot n v).Sound ↔ v.soundBeside (b.slot n.other) := by
  rw [RateStore.sound_iff _ n]
  simp

/-- Soundness is a matter of the slots. -/
theorem RateStore.sound_of_slots {a b : RateStore} (slots : ∀ n, b.slot n = a.slot n) (h : a.Sound) : b.Sound := by
  rw [RateStore.sound_iff _ .zero] at h ⊢
  rw [slots, slots]
  exact h

/-! ## The ACTIVE and the READY slot (R80, R92) -/

/-- The ACTIVE slot is found. -/
theorem RateStore.active_eq_some {b : RateStore} (sound : b.Sound) (n : SlotNo) : b.active = some n ↔ (b.slot n).state = .active := by
  obtain ⟨-, -, alone, -, -⟩ := sound
  unfold RateStore.active
  cases n with
  | zero =>
    simp only [RateStore.slot]
    split_ifs with first second
    all_goals simp [first]
  | one =>
    simp only [RateStore.slot]
    split_ifs with first second
    · simpa [first] using alone
    all_goals simp [second]

/-- No slot is ACTIVE. -/
theorem RateStore.active_eq_none {b : RateStore} : b.active = none ↔ ∀ n, (b.slot n).state ≠ .active := by
  have both : (∀ n, (b.slot n).state ≠ .active) ↔ b.slot0.state ≠ .active ∧ b.slot1.state ≠ .active :=
    ⟨fun h => ⟨h .zero, h .one⟩, fun h n => by cases n with | zero => exact h.1 | one => exact h.2⟩
  rw [both]
  unfold RateStore.active
  split_ifs with first second
  all_goals simp [*]

/-- Beside a READY slot the other one is ACTIVE, so no other is READY. -/
theorem RateStore.ready_other {b : RateStore} {n : SlotNo} (sound : b.Sound) (ready : (b.slot n).state = .ready) :
    (b.slot n.other).state = .active := by
  obtain ⟨-, -, -, needs, -⟩ := (RateStore.sound_iff b n).mp sound
  exact needs (.inl ready)

/-- The READY slot of a generation is found. -/
theorem RateStore.readyOf_eq_some {b : RateStore} (sound : b.Sound) (g : Nat) (n : SlotNo) :
    b.readyOf g = some n ↔ (b.slot n).state = .ready ∧ (b.slot n).generation = g := by
  have other : b.slot0.state = .ready → b.slot1.state = .active := RateStore.ready_other (n := .zero) sound
  unfold RateStore.readyOf
  cases n with
  | zero =>
    simp only [RateStore.slot]
    split_ifs with first second
    all_goals simp [first]
  | one =>
    simp only [RateStore.slot]
    split_ifs with first second
    · simp [other first.1]
    all_goals simp [second]

/-- No slot is READY with the generation. -/
theorem RateStore.readyOf_eq_none {b : RateStore} (sound : b.Sound) (g : Nat) :
    b.readyOf g = none ↔ ∀ n, (b.slot n).state = .ready → (b.slot n).generation ≠ g := by
  rw [Option.eq_none_iff_forall_ne_some]
  exact forall_congr' fun n => by rw [Ne, RateStore.readyOf_eq_some sound]; tauto

/-- The ACTIVE slot has the generation. -/
theorem RateStore.activeHas_eq_some {b : RateStore} (sound : b.Sound) (g : Nat) (n : SlotNo) :
    b.activeHas g = some n ↔ (b.slot n).state = .active ∧ (b.slot n).generation = g := by
  rw [← RateStore.active_eq_some sound]
  unfold RateStore.activeHas
  split
  next m found =>
    rw [found]
    by_cases same : m = n
    · subst same
      simp
    · simp only [Option.some.injEq, same, false_and, iff_false]
      split_ifs
      · simp [same]
      · simp
  next none => simp [none]

/-- No slot is ACTIVE with the generation. -/
theorem RateStore.activeHas_eq_none {b : RateStore} (sound : b.Sound) (g : Nat) :
    b.activeHas g = none ↔ ∀ n, (b.slot n).state = .active → (b.slot n).generation ≠ g := by
  rw [Option.eq_none_iff_forall_ne_some]
  exact forall_congr' fun n => by rw [Ne, RateStore.activeHas_eq_some sound]; tauto

/-! ## The bank for a piece (R90 to R93) -/

/-- A piece number before a switch point, in numbers. -/
theorem atOrAfter_iff (p q : PieceNo) : atOrAfter p q = true ↔ (p - q).toNat < 32768 := by
  simp [atOrAfter]

/-- Before the switch point, or with none held, the ACTIVE slot is asked for. -/
theorem askBank_before {p : PieceNo} {s : State}
    (before : ∀ point, s.rates.switchPoint = some point → 32768 ≤ (p - point.first).toNat) : askBank p s = askActive s := by
  unfold askBank
  split
  · rfl
  next point held =>
    rw [if_neg]
    rw [atOrAfter_iff]
    have := before point held
    omega

/-- At or after the switch point, the generation it names is asked for. -/
theorem askBank_at {p : PieceNo} {s : State} {point : SwitchPoint} (held : s.rates.switchPoint = some point)
    (now : (p - point.first).toNat < 32768) : askBank p s =
      match s.rates.readyOf point.generation with
      | some n => bindTo n (carryOutSwitch n s)
      | none =>
        match s.rates.activeHas point.generation with
        | some n => bindTo n { s with rates := { s.rates with switchPoint := none } }
        | none => noBank s := by
  unfold askBank
  rw [held]
  exact if_pos ((atOrAfter_iff p point.first).mpr now)

/-- The slots after a switch is carried out: the READY slot is ACTIVE, the other one has left ACTIVE. -/
theorem carryOutSwitch_slot (n : SlotNo) (s : State) :
    ((carryOutSwitch n s).rates.slot n = { s.rates.slot n with state := .active }) ∧
      (carryOutSwitch n s).rates.slot n.other = (s.rates.slot n.other).leaveActive := by
  cases n <;> exact ⟨rfl, rfl⟩

/-- Settles O20: before the point the ACTIVE slot is asked for; at it, the slots READY, then ACTIVE, with the generation named. -/
theorem bankForAPiece : Obligations.BankForAPiece := by
  intro p s sound bound refused before
  have refuses : noBank s = refused := rfl
  refine ⟨fun n early active => ?_, fun early none => ?_, fun point held now => ⟨fun n ready generation => ?_, fun unready => ⟨
    fun n active generation => ?_, fun inactive => ?_⟩⟩⟩
  · rw [askBank_before early, askActive, (RateStore.active_eq_some sound n).mpr active]
    rfl
  · rw [askBank_before early, askActive, RateStore.active_eq_none.mpr none]
    exact refuses
  · have found := (RateStore.readyOf_eq_some sound _ n).mpr ⟨ready, generation⟩
    have unbound : (s.rates.slot n).bound = 0 := by
      obtain ⟨⟨-, none, -⟩, -⟩ := (RateStore.sound_iff _ n).mp sound
      exact none (.inr (.inr ready))
    obtain ⟨switched, left⟩ := carryOutSwitch_slot n s
    have otherActive := RateStore.ready_other sound ready
    refine ⟨(bindTo n (carryOutSwitch n s)).1, ?_, mem_addEvent _ _, ?_, ?_, ?_, ?_, ?_, ?_, rfl⟩
    · rw [askBank_at held now, found]
      simp only [bindTo, switched, generation]
    · simp [bindTo, switched]
    · simp [bindTo, switched, unbound]
    · simp [bindTo, switched]
    · simp [bindTo, left, BankSlot.leaveActive, otherActive]
    · simp only [bindTo, RateStore.setSlot_switchPoint]
      rfl
    · cases n <;> rfl
  · have found := (RateStore.activeHas_eq_some sound _ n).mpr ⟨active, generation⟩
    rw [askBank_at held now, (RateStore.readyOf_eq_none sound _).mpr unready, found]
    cases n <;> simp [bindTo, bound, RateStore.slot, RateStore.setSlot] at generation ⊢ <;> exact generation
  · rw [askBank_at held now, (RateStore.readyOf_eq_none sound _).mpr unready, (RateStore.activeHas_eq_none sound _).mpr inactive]
    exact refuses

end Sys2Proof.Machine
end

section
/-! The piece table: its records are told apart, no piece is in it and in the passing list, at most one is in RATING, and the binding
counts count them. Most operations leave the records where they are; a take, a retirement, a rating and the bank commands are
judged one by one. -/

set_option Elab.async false

namespace Sys2Proof.Machine

/-! ## Records left where they are -/

/-- What tells the records of a table apart and binds them. -/
def PieceRecord.identity (r : PieceRecord) : Nat × PieceNo × Binding :=
  (r.tag, r.piece, r.binding)

/-- The second state has the records of the first, and the same slots and passing list. -/
structure SameRecords (s t : State) : Prop where
  records : t.tracker.pieces.map PieceRecord.identity = s.tracker.pieces.map PieceRecord.identity := by simp
  nextTag : t.tracker.nextTag = s.tracker.nextTag := by simp
  passing : t.intake.passing = s.intake.passing := by simp
  slot0 : t.rates.slot0 = s.rates.slot0 := by simp
  slot1 : t.rates.slot1 = s.rates.slot1 := by simp

namespace SameRecords

variable {s t u : State}

/-- A chain of two. -/
theorem trans (h : SameRecords s t) (k : SameRecords t u) : SameRecords s u where
  records := k.records.trans h.records
  nextTag := k.nextTag.trans h.nextTag
  passing := k.passing.trans h.passing
  slot0 := k.slot0.trans h.slot0
  slot1 := k.slot1.trans h.slot1

/-- The tags stand as they stood. -/
theorem tags (h : SameRecords s t) : t.tracker.pieces.map PieceRecord.tag = s.tracker.pieces.map PieceRecord.tag := by
  simpa [PieceRecord.identity, Function.comp_def] using congrArg (List.map Prod.fst) h.records

/-- The piece numbers stand as they stood. -/
theorem numbers (h : SameRecords s t) :
    t.tracker.pieces.map PieceRecord.piece = s.tracker.pieces.map PieceRecord.piece := by
  simpa [PieceRecord.identity, Function.comp_def] using congrArg (List.map fun x => x.2.1) h.records

/-- The bindings stand as they stood. -/
theorem bindings (h : SameRecords s t) :
    t.tracker.pieces.map PieceRecord.binding = s.tracker.pieces.map PieceRecord.binding := by
  simpa [PieceRecord.identity, Function.comp_def] using congrArg (List.map fun x => x.2.2) h.records

/-- The slots stand as they stood. -/
theorem slots (h : SameRecords s t) (n : SlotNo) : t.rates.slot n = s.rates.slot n := by
  cases n with
  | zero => exact h.slot0
  | one => exact h.slot1

end SameRecords

/-- And none of the records has entered RATING, and the rating in flight is the same. -/
structure Undisturbed (s t : State) : Prop extends SameRecords s t where
  rating : ∀ r ∈ t.tracker.pieces, r.state = .rating → ∃ q ∈ s.tracker.pieces, q.tag = r.tag ∧ q.state = .rating := by
    intro r mem rating
    exact ⟨r, by simpa using mem, rfl, rating⟩
  engine : t.engine = s.engine := by simp

namespace Undisturbed

variable {s t u : State}

/-- Nothing changed. -/
theorem refl (s : State) : Undisturbed s s := {}

/-- A chain of two. -/
theorem trans (h : Undisturbed s t) (k : Undisturbed t u) : Undisturbed s u where
  toSameRecords := h.toSameRecords.trans k.toSameRecords
  rating r mem rating := by
    obtain ⟨q, memQ, tag, ratingQ⟩ := k.rating r mem rating
    obtain ⟨p, memP, tagP, ratingP⟩ := h.rating q memQ ratingQ
    exact ⟨p, memP, tagP.trans tag, ratingP⟩
  engine := k.engine.trans h.engine

/-- States with the same tables. -/
theorem of_same (h : SameTables s t) : Undisturbed s t where
  records := by rw [h.pieces]
  rating r mem rating := ⟨r, h.pieces ▸ mem, rfl, rating⟩
  nextTag := h.nextTag
  passing := h.passing
  engine := h.engine
  slot0 := h.slot0
  slot1 := h.slot1

end Undisturbed

/-! ## The two invariants -/

/-- The invariant of PiecesKept. -/
def State.PiecesSound (s : State) : Prop :=
  s.tracker.Sound ∧ s.ListsApart ∧ s.EngineSound

/-- Its part that the states of the records and the rating in flight have no part in. -/
def State.RecordsApart (s : State) : Prop :=
  s.tracker.Sound ∧ s.ListsApart

/-- The tags of a table, in the words of a list. -/
theorem tags_below_iff (pieces : List PieceRecord) (limit : Nat) :
    (∀ r ∈ pieces, r.tag < limit) ↔ ∀ tag ∈ pieces.map PieceRecord.tag, tag < limit := by
  simp

/-- A table with the same tags and numbers is as sound. -/
theorem SameRecords.trackerSound {s t : State} (h : SameRecords s t) (sound : s.tracker.Sound) : t.tracker.Sound := by
  obtain ⟨tags, below, numbers⟩ := sound
  refine ⟨h.tags ▸ tags, ?_, h.numbers ▸ numbers⟩
  rw [tags_below_iff] at below ⊢
  rw [h.tags, h.nextTag]
  exact below

/-- The lists apart, in the words of the piece numbers. -/
theorem listsApart_iff (s : State) : s.ListsApart ↔ (s.intake.passing.map PassingEntry.piece).Nodup ∧
    ∀ p ∈ s.tracker.pieces.map PieceRecord.piece, p ∉ s.intake.passing.map PassingEntry.piece := by
  simp only [State.ListsApart, List.mem_map, not_exists, not_and, forall_exists_index, and_imp, forall_apply_eq_imp_iff₂]
  exact and_congr_right fun _ => forall₄_congr fun _ _ _ _ => ⟨Ne.symm, Ne.symm⟩

/-- Records left where they are are as well told apart. -/
theorem SameRecords.recordsApart {s t : State} (h : SameRecords s t) (sound : s.RecordsApart) : t.RecordsApart := by
  obtain ⟨tracker, apart⟩ := sound
  refine ⟨h.trackerSound tracker, ?_⟩
  rw [listsApart_iff] at apart ⊢
  rw [h.passing, h.numbers]
  exact apart

/-- And where none has entered RATING, the rating in flight is for the one in RATING. -/
theorem Undisturbed.piecesSound {s t : State} (h : Undisturbed s t) (sound : s.PiecesSound) : t.PiecesSound := by
  obtain ⟨tracker, apart, -, rating⟩ := sound
  obtain ⟨tracker', apart'⟩ := h.recordsApart ⟨tracker, apart⟩
  refine ⟨tracker', apart', tracker', fun r mem state => ?_⟩
  obtain ⟨q, memQ, tag, stateQ⟩ := h.rating r mem state
  rw [h.engine, rating q memQ stateQ, tag]

/-- The bindings counted slot by slot: the count is right, and a slot with bindings is ACTIVE or RETIRING. -/
theorem bindingsCounted_iff (s : State) : s.BindingsCounted ↔ s.tracker.Sound ∧ s.rates.Sound ∧
    ∀ n, (s.rates.slot n).bound = boundTo n s.tracker.pieces ∧
      (1 ≤ boundTo n s.tracker.pieces → (s.rates.slot n).state = .active ∨ (s.rates.slot n).state = .retiring) := by
  unfold State.BindingsCounted
  have held : ∀ n, 1 ≤ boundTo n s.tracker.pieces ↔ ∃ r ∈ s.tracker.pieces, r.binding.slot = n := fun n => by
    simp [boundTo, Nat.one_le_iff_ne_zero, List.countP_eq_zero]
  constructor
  · rintro ⟨tracker, rates, counts, states⟩
    refine ⟨tracker, rates, fun n => ⟨counts n, fun some => ?_⟩⟩
    obtain ⟨r, mem, rfl⟩ := (held n).mp some
    exact states r mem
  · rintro ⟨tracker, rates, slots⟩
    exact ⟨tracker, rates, fun n => (slots n).1, fun r mem => (slots _).2 ((held _).mpr ⟨r, mem, rfl⟩)⟩

/-- The binding count is a matter of the bindings. -/
theorem boundTo_eq (n : SlotNo) (pieces : List PieceRecord) :
    boundTo n pieces = (pieces.map PieceRecord.binding).countP (fun b => b.slot == n) := by
  rw [boundTo, List.countP_map]
  rfl

/-- Records left where they are are as bound. -/
theorem SameRecords.bindingsCounted {s t : State} (h : SameRecords s t) (sound : s.BindingsCounted) : t.BindingsCounted := by
  rw [bindingsCounted_iff] at sound ⊢
  obtain ⟨tracker, rates, counts⟩ := sound
  refine ⟨h.trackerSound tracker, RateStore.sound_of_slots h.slots rates, fun n => ?_⟩
  rw [h.slots, boundTo_eq, h.bindings, ← boundTo_eq]
  exact counts n

/-- The records stay apart and bound. -/
structure KeepsApart (s t : State) : Prop where
  tracker : s.tracker.Sound → t.tracker.Sound
  apart : s.RecordsApart → t.RecordsApart
  bindings : s.BindingsCounted → t.BindingsCounted

/-- And at most one is in RATING. -/
structure KeepsRecords (s t : State) : Prop extends KeepsApart s t where
  pieces : s.PiecesSound → t.PiecesSound

/-- Records left where they are. -/
theorem SameRecords.keeps {s t : State} (h : SameRecords s t) : KeepsApart s t :=
  ⟨h.trackerSound, h.recordsApart, h.bindingsCounted⟩

/-- Records undisturbed. -/
theorem Undisturbed.keeps {s t : State} (h : Undisturbed s t) : KeepsRecords s t :=
  ⟨h.toSameRecords.keeps, h.piecesSound⟩

/-- A chain of two. -/
theorem KeepsApart.trans {s t u : State} (h : KeepsApart s t) (k : KeepsApart t u) : KeepsApart s u :=
  ⟨fun r => k.tracker (h.tracker r), fun p => k.apart (h.apart p), fun b => k.bindings (h.bindings b)⟩

/-- A chain of two. -/
theorem KeepsRecords.trans {s t u : State} (h : KeepsRecords s t) (k : KeepsRecords t u) : KeepsRecords s u :=
  ⟨h.toKeepsApart.trans k.toKeepsApart, fun p => k.pieces (h.pieces p)⟩

/-! ## A record leaves the table (R77) -/

/-- The table holds the record named: one of its tag and binding. -/
def State.holds (s : State) (r : PieceRecord) : Prop :=
  ∃ q ∈ s.tracker.pieces, q.tag = r.tag ∧ q.binding = r.binding

/-- A record of the table. -/
theorem holds_of_mem {s : State} {r : PieceRecord} (mem : r ∈ s.tracker.pieces) : s.holds r :=
  ⟨r, mem, rfl, rfl⟩

/-- A record is held where the records are left. -/
theorem SameRecords.holds {s t : State} (h : SameRecords s t) {r : PieceRecord} (held : s.holds r) : t.holds r := by
  obtain ⟨q, mem, tag, binding⟩ := held
  have there : q.identity ∈ t.tracker.pieces.map PieceRecord.identity := h.records ▸ List.mem_map_of_mem mem
  obtain ⟨x, memX, same⟩ := List.mem_map.mp there
  simp only [PieceRecord.identity, Prod.mk.injEq] at same
  exact ⟨x, memX, same.1.trans tag, same.2.2.trans binding⟩

/-- A slot that loses a binding, soundly beside the other (R94). -/
theorem released_sound {a b : BankSlot} (sound : a.soundBeside b) (bound : 1 ≤ a.bound) : a.released.soundBeside b := by
  obtain ⟨⟨content, unbound, retiring⟩, other, alone, needs, needed⟩ := sound
  have state : a.state = .active ∨ a.state = .retiring := by
    cases kind : a.state with
    | active => exact .inl rfl
    | retiring => exact .inr rfl
    | _ => exact absurd (unbound (by simp [kind])) (Nat.ne_of_gt bound)
  unfold BankSlot.released
  split
  next last =>
    have inactive : a.state ≠ .active := by simp [last.1]
    refine ⟨by simp [BankSlot.Sound, BankSlot.blank], other, by simp [BankSlot.blank], by simp [needsActive, BankSlot.blank],
      fun kind => absurd (needed kind) inactive⟩
  next more =>
    refine ⟨⟨content, fun kind => ?_, fun kind => ?_⟩, other, alone, needs, needed⟩
    · rcases state with kind' | kind' <;> simp [kind'] at kind
    · have := fun zero => more ⟨kind, zero⟩
      exact Nat.one_le_iff_ne_zero.mpr this

/-- The state of a slot that keeps bindings when it loses one. -/
theorem released_state {a : BankSlot} (more : 1 ≤ a.bound - 1) : a.released.state = a.state ∧ a.released.bound = a.bound - 1 := by
  unfold BankSlot.released
  rw [if_neg (fun last => by omega)]
  exact ⟨rfl, rfl⟩

/-- A slot loses one binding, and has none when it becomes EMPTY. -/
theorem released_bound (a : BankSlot) : a.released.bound = a.bound - 1 := by
  unfold BankSlot.released
  split
  next last => exact last.2.symm
  next => rfl

/-- A table with a record less is as sound. -/
theorem trackerSound_filter {t : Tracker} (p : PieceRecord → Bool) (sound : t.Sound) :
    ({ t with pieces := t.pieces.filter p } : Tracker).Sound := by
  obtain ⟨tags, below, numbers⟩ := sound
  have fewer : (t.pieces.filter p).Sublist t.pieces := List.filter_sublist
  exact ⟨tags.sublist (fewer.map _), fun r mem => below r (fewer.mem mem), numbers.sublist (fewer.map _)⟩

/-- A record taken out, its binding released. -/
theorem keepsRecords_removeRecord (r : PieceRecord) (s : State) (held : s.holds r) : KeepsRecords s (removeRecord r s) := by
  have fewer : (s.tracker.pieces.filter (fun x => x.tag != r.tag)).Sublist s.tracker.pieces := List.filter_sublist
  have apart : s.RecordsApart → (removeRecord r s).RecordsApart := fun ⟨tracker, passing, apart⟩ =>
    ⟨trackerSound_filter _ tracker, passing, fun x mem => apart x (fewer.mem mem)⟩
  refine ⟨⟨trackerSound_filter _, apart, fun counted => ?_⟩, fun ⟨tracker, lists, _, rating⟩ => ?_⟩
  · rw [bindingsCounted_iff] at counted ⊢
    obtain ⟨tracker, rates, counts⟩ := counted
    obtain ⟨q, mem, tag, binding⟩ := held
    have fewer : ∀ n, boundTo n (s.tracker.pieces.filter (fun x => x.tag != r.tag)) + (if r.binding.slot = n then 1 else 0) =
        boundTo n s.tracker.pieces := fun n => by
      have removed := countP_remove (fun x => x.binding.slot == n) s.tracker.pieces q tracker.1 mem
      simp only [tag, binding, beq_iff_eq] at removed
      exact removed
    have one : 1 ≤ (s.rates.slot r.binding.slot).bound := by
      have own := fewer r.binding.slot
      rw [if_pos rfl] at own
      have := (counts r.binding.slot).1
      omega
    refine ⟨trackerSound_filter _ tracker, ?_, fun n => ?_⟩
    · rw [removeRecord_rates, RateStore.setSlot_sound]
      exact released_sound ((RateStore.sound_iff _ _).mp rates) one
    · obtain ⟨count, state⟩ := counts n
      have left := fewer n
      rw [removeRecord_rates, removeRecord_pieces]
      rcases SlotNo.eq_or_other n r.binding.slot with rfl | rfl
      · rw [if_pos rfl] at left
        rw [RateStore.slot_setSlot_same]
        refine ⟨by rw [released_bound]; omega, fun some => ?_⟩
        rw [(released_state (by omega)).1]
        exact state (by omega)
      · rw [if_neg (SlotNo.other_ne _).symm] at left
        rw [RateStore.slot_setSlot_other]
        exact ⟨by omega, fun some => state (by omega)⟩
  · obtain ⟨tracker', lists'⟩ := apart ⟨tracker, lists⟩
    exact ⟨tracker', lists', tracker', fun x mem => rating x (fewer.mem mem)⟩

/-- A retirement. -/
theorem keepsRecords_retire (r : PieceRecord) (kind : FrameKind) (body : List Byte) (s : State) (held : s.holds r) :
    KeepsRecords s (retire r kind body s) :=
  KeepsRecords.trans (keepsRecords_removeRecord r s held)
    (Undisturbed.keeps (t := settleQuiet (giveAtRetirement kind body (removeRecord r s))) {})

/-- A piece missed. -/
theorem keepsRecords_missPiece (r : PieceRecord) (cause : FrankCause) (serial : Nat) (s : State) (held : s.holds r) :
    KeepsRecords s (missPiece r cause serial s) := by
  have raised : Undisturbed s (raise .pieceMissed s) := {}
  exact KeepsRecords.trans raised.keeps (keepsRecords_retire _ _ _ _ (raised.holds held))

/-! ## A record changes in place -/

/-- A change that leaves a record where it is, and not newly in RATING. -/
def inPlace (change : PieceRecord → PieceRecord) : Prop :=
  ∀ r, (change r).identity = r.identity ∧ ((change r).state = .rating → r.state = .rating)

/-- A record changed in what does not tell it from the others. -/
theorem sameRecords_changeRecord {change : PieceRecord → PieceRecord} (tag : Nat) (s : State)
    (identity : ∀ r, (change r).identity = r.identity) : SameRecords s (changeRecord tag change s) where
  records := by
    rw [changeRecord_pieces, List.map_map]
    refine List.map_congr_left fun r _ => ?_
    simp only [Function.comp]
    split
    · exact identity r
    · rfl

/-- A record changed in place. -/
theorem undisturbed_changeRecord {change : PieceRecord → PieceRecord} (tag : Nat) (s : State) (h : inPlace change) :
    Undisturbed s (changeRecord tag change s) where
  toSameRecords := sameRecords_changeRecord tag s fun r => (h r).1
  rating r mem rating := by
    obtain ⟨q, memQ, rfl⟩ := List.mem_map.mp (changeRecord_pieces tag change s ▸ mem)
    split at rating
    next same =>
      have tagged : (change q).tag = q.tag := congrArg Prod.fst (h q).1
      exact ⟨q, memQ, by rw [if_pos same, tagged], (h q).2 rating⟩
    next other => exact ⟨q, memQ, by rw [if_neg other], rating⟩

/-- A change to a state that is not RATING, and of fields that do not tell the record. -/
theorem inPlace_of {change : PieceRecord → PieceRecord} (identity : ∀ r, (change r).identity = r.identity)
    (state : ∀ r, (change r).state ≠ .rating) : inPlace change :=
  fun r => ⟨identity r, fun rating => absurd rating (state r)⟩

/-- A report changes its record in place. -/
theorem undisturbed_reportTo {change : PieceRecord → PieceRecord} (p : PieceNo) (s : State) (h : inPlace change) :
    Undisturbed s (reportTo p change s) := by
  unfold reportTo
  split
  · exact .refl s
  · exact undisturbed_changeRecord _ s h

/-- A measure report changes its record in place. -/
theorem inPlace_measureInto (m : MeasurePart) : inPlace (measureInto m) := fun r => by
  unfold measureInto
  split
  next taken _ => exact ⟨rfl, fun rating => by dsimp only at rating; split_ifs at rating⟩
  all_goals exact ⟨rfl, fun rating => rating⟩

/-- An address report changes its record in place. -/
theorem inPlace_addressInto (a : AddressPart) : inPlace (addressInto a) := fun r => by
  unfold addressInto
  split
  next taken _ => exact ⟨rfl, fun rating => by dsimp only at rating; split_ifs at rating⟩
  all_goals exact ⟨rfl, fun rating => rating⟩

/-- The record of a slot write asked for becomes FINISHING, or is missed. -/
theorem keepsRecords_requestSlotWrite (r : PieceRecord) (w : StoreWrite) (s : State) (held : s.holds r) :
    KeepsRecords s (requestSlotWrite r w s) := by
  unfold requestSlotWrite
  split
  · exact keepsRecords_missPiece _ _ _ _ held
  · have finishing := undisturbed_changeRecord r.tag s
      (inPlace_of (change := fun x => { x with state := .finishing }) (fun _ => rfl) (by simp))
    exact (finishing.trans {}).keeps

/-! ## A record joins the table (R35, R39) -/

/-- A record put into reference order is among the others. -/
theorem insertRecord_perm (r : PieceRecord) (pieces : List PieceRecord) : (insertRecord r pieces).Perm (r :: pieces) := by
  induction pieces with
  | nil => exact .rfl
  | cons x rest ih =>
    unfold insertRecord
    split
    · exact (ih.cons x).trans (.swap r x rest)
    · exact .rfl

/-- The table and the passing list after a take. -/
theorem take_tables (r : PieceRecord) (s : State) :
    (take r s).tracker.pieces = insertRecord r s.tracker.pieces ∧ (take r s).tracker.nextTag = s.tracker.nextTag + 1 ∧
      (take r s).intake.passing = s.intake.passing.filter (fun e => e.piece != r.piece) := by
  simp [take, addRecord, dropPassing]

/-- A table with a new record is sound. -/
theorem take_trackerSound {r : PieceRecord} {s : State} (sound : s.tracker.Sound) (tag : r.tag = s.tracker.nextTag)
    (absent : r.piece ∉ s.tracker.pieces.map PieceRecord.piece) : (take r s).tracker.Sound := by
  obtain ⟨tags, below, numbers⟩ := sound
  obtain ⟨pieces, next, -⟩ := take_tables r s
  have joined := insertRecord_perm r s.tracker.pieces
  unfold Tracker.Sound
  rw [pieces, next]
  refine ⟨(joined.map _).nodup_iff.mpr (List.nodup_cons.mpr ⟨fun mem => ?_, tags⟩), fun x mem => ?_,
    (joined.map _).nodup_iff.mpr (List.nodup_cons.mpr ⟨absent, numbers⟩)⟩
  · obtain ⟨q, memQ, same⟩ := List.mem_map.mp mem
    have := below q memQ
    omega
  · rcases List.mem_cons.mp (joined.mem_iff.mp mem) with rfl | old
    · omega
    · have := below x old
      omega

/-- A taken piece is in the table and no longer in the passing list. -/
theorem take_recordsApart {r : PieceRecord} {s : State} (sound : s.RecordsApart) (tag : r.tag = s.tracker.nextTag)
    (absent : r.piece ∉ s.tracker.pieces.map PieceRecord.piece) : (take r s).RecordsApart := by
  obtain ⟨tracker, once, apart⟩ := sound
  obtain ⟨pieces, -, passing⟩ := take_tables r s
  refine ⟨take_trackerSound tracker tag absent, ?_, fun x mem e memE => ?_⟩
  · rw [passing]
    exact once.sublist (List.filter_sublist.map _)
  · rw [pieces, (insertRecord_perm r s.tracker.pieces).mem_iff] at mem
    rw [passing, List.mem_filter] at memE
    obtain ⟨there, other⟩ := memE
    rcases List.mem_cons.mp mem with rfl | old
    · exact Ne.symm (by simpa using other)
    · exact apart x old e there

/-- The bindings counted after a take: the slot the record is bound to has one binding more than the table before. -/
theorem take_bindingsCounted {r : PieceRecord} {s : State} (tracker : s.tracker.Sound) (rates : s.rates.Sound)
    (tag : r.tag = s.tracker.nextTag) (absent : r.piece ∉ s.tracker.pieces.map PieceRecord.piece)
    (active : (s.rates.slot r.binding.slot).state = .active)
    (counts : ∀ n, (s.rates.slot n).bound = boundTo n s.tracker.pieces + if r.binding.slot = n then 1 else 0)
    (states : ∀ n, 1 ≤ boundTo n s.tracker.pieces → (s.rates.slot n).state = .active ∨ (s.rates.slot n).state = .retiring) :
    (take r s).BindingsCounted := by
  obtain ⟨pieces, -, -⟩ := take_tables r s
  have slots : (take r s).rates = s.rates := by simp
  have one : ∀ n, boundTo n (insertRecord r s.tracker.pieces) = boundTo n s.tracker.pieces + if r.binding.slot = n then 1 else 0 :=
    fun n => by
      rw [boundTo, (insertRecord_perm r s.tracker.pieces).countP_eq, List.countP_cons]
      simp [boundTo]
  rw [bindingsCounted_iff, pieces, slots]
  refine ⟨take_trackerSound tracker tag absent, rates, fun n => ⟨(counts n).trans (one n).symm, fun some => ?_⟩⟩
  by_cases own : r.binding.slot = n
  · exact .inl (own ▸ active)
  · rw [one n, if_neg own] at some
    exact states n some

/-! ## The bank asked for -/

/-- Asking for a bank changes the Rate Store, and may raise an event (R90 to R93). -/
theorem askBank_changes (p : PieceNo) (s : State) : ∃ rates port, (askBank p s).1 = { s with rates := rates, port := port } ∧
    port.config = s.port.config := by
  have none : ∃ rates port, (noBank s).1 = { s with rates := rates, port := port } ∧ port.config = s.port.config := by
    unfold noBank
    split
    · exact ⟨_, _, rfl, rfl⟩
    · exact ⟨_, _, rfl, rfl⟩
  have active : ∃ rates port, (askActive s).1 = { s with rates := rates, port := port } ∧ port.config = s.port.config := by
    unfold askActive
    split
    · exact ⟨_, _, rfl, rfl⟩
    · exact none
  unfold askBank
  split
  · exact active
  · split
    · split
      · exact ⟨_, _, rfl, rfl⟩
      · split
        · exact ⟨_, _, rfl, rfl⟩
        · exact none
    · exact active

/-- Asking for a bank leaves the piece table, the passing list and the rating in flight. -/
theorem askBank_tables {p : PieceNo} {s u : State} {b : Option Binding} (asked : askBank p s = (u, b)) :
    u.tracker = s.tracker ∧ u.intake = s.intake ∧ u.engine = s.engine := by
  obtain ⟨rates, port, changed, -⟩ := askBank_changes p s
  have changed : u = { s with rates := rates, port := port } := by rw [← changed, asked]
  rw [changed]
  exact ⟨rfl, rfl, rfl⟩

/-- Asking in vain changes no slot (R93). -/
theorem askBank_none {p : PieceNo} {s u : State} (asked : askBank p s = (u, none)) : SameTables s u := by
  have refused : ∀ {v : State}, noBank s = (v, none) → SameTables s v := fun {v} e => by
    unfold noBank at e
    split at e
    · obtain rfl := (Prod.mk.inj e).1
      exact .refl _
    · obtain rfl := (Prod.mk.inj e).1
      exact {}
  have inactive : ∀ {v : State}, askActive s = (v, none) → SameTables s v := fun {v} e => by
    unfold askActive at e
    split at e
    · simp [bindTo] at e
    · exact refused e
  unfold askBank at asked
  split at asked
  · exact inactive asked
  · split at asked
    · split at asked
      · simp [bindTo] at asked
      · split at asked
        · simp [bindTo] at asked
        · exact refused asked
    · exact inactive asked

/-- What the slots are after a piece is bound to one: it is ACTIVE with one binding more, the other has its bindings, and is
ACTIVE or RETIRING if it was and has any. -/
structure Bound (a b : RateStore) (n : SlotNo) : Prop where
  sound : b.Sound
  active : (b.slot n).state = .active
  count : ∀ m, (b.slot m).bound = (a.slot m).bound + if n = m then 1 else 0
  states : ∀ m, 1 ≤ (a.slot m).bound → (a.slot m).state = .active ∨ (a.slot m).state = .retiring →
    (b.slot m).state = .active ∨ (b.slot m).state = .retiring

/-- Only the slots matter. -/
theorem Bound.of_slots {a a' b : RateStore} {n : SlotNo} (h : Bound a b n) (slots : ∀ m, a.slot m = a'.slot m) : Bound a' b n where
  sound := h.sound
  active := h.active
  count m := slots m ▸ h.count m
  states m := slots m ▸ h.states m

/-- One more binding of an ACTIVE slot (R90, R94). -/
theorem bound_bindTo {a : RateStore} {n : SlotNo} (sound : a.Sound) (active : (a.slot n).state = .active) :
    Bound a (a.setSlot n { a.slot n with bound := (a.slot n).bound + 1 }) n where
  sound := by
    rw [RateStore.setSlot_sound]
    obtain ⟨⟨content, -, -⟩, rest⟩ := (RateStore.sound_iff a n).mp sound
    exact ⟨⟨content, by simp [active], by simp⟩, rest⟩
  active := by simpa using active
  count m := by
    rcases SlotNo.eq_or_other m n with rfl | rfl
    · simp
    · simp [Ne.symm (SlotNo.other_ne n)]
  states m _ := by
    rcases SlotNo.eq_or_other m n with rfl | rfl
    · simp
    · simp

/-- A switch carried out to a READY slot: the old slot keeps its bindings in RETIRING, or is EMPTY without any (R92). -/
theorem carryOutSwitch_slots {n : SlotNo} {s : State} (sound : s.rates.Sound) (ready : (s.rates.slot n).state = .ready) :
    (carryOutSwitch n s).rates.Sound ∧ ((carryOutSwitch n s).rates.slot n).state = .active ∧
      (∀ m, ((carryOutSwitch n s).rates.slot m).bound = (s.rates.slot m).bound) ∧
      ∀ m, 1 ≤ (s.rates.slot m).bound → ((carryOutSwitch n s).rates.slot m).state = .active ∨
        ((carryOutSwitch n s).rates.slot m).state = .retiring := by
  obtain ⟨switched, left⟩ := carryOutSwitch_slot n s
  have otherActive := RateStore.ready_other sound ready
  obtain ⟨⟨content, unbound, -⟩, ⟨contentOther, -, -⟩, -⟩ := (RateStore.sound_iff _ n).mp sound
  have unbound := unbound (.inr (.inr ready))
  have filled : (s.rates.slot n).content ≠ none := fun none => by simp [content.mpr none] at ready
  have filledOther : (s.rates.slot n.other).content ≠ none := fun none => by simp [contentOther.mpr none] at otherActive
  simp only [BankSlot.leaveActive, otherActive, if_true] at left
  refine ⟨(RateStore.sound_iff _ n).mpr ?_, by rw [switched], fun m => ?_, fun m some => ?_⟩
  · rw [switched, left]
    split
    · exact ⟨⟨by simp [filled], by simp, by simp⟩, by simp [BankSlot.Sound, BankSlot.blank], by simp [BankSlot.blank],
        by simp [needsActive], by simp [needsActive]⟩
    next some =>
      exact ⟨⟨by simp [filled], by simp, by simp⟩, ⟨by simp [filledOther], by simp, fun _ => Nat.one_le_iff_ne_zero.mpr some⟩,
        by simp, by simp [needsActive], by simp [needsActive]⟩
  · rcases SlotNo.eq_or_other m n with rfl | rfl
    · rw [switched]
    · rw [left]
      split
      next zero => exact zero.symm
      next => rfl
  · rcases SlotNo.eq_or_other m n with rfl | rfl
    · omega
    · rw [left, if_neg (by omega)]
      exact .inr rfl

/-- The slots after a bank is found (R90 to R92). -/
theorem askBank_bound {p : PieceNo} {s u : State} {b : Binding} (sound : s.rates.Sound) (asked : askBank p s = (u, some b)) :
    Bound s.rates u.rates b.slot := by
  have refused : ∀ {v : State}, noBank s ≠ (v, some b) := fun {v} e => by
    unfold noBank at e
    split at e
    · cases e
    · cases e
  have active : ∀ {v : State}, askActive s = (v, some b) → Bound s.rates v.rates b.slot := fun {v} e => by
    unfold askActive at e
    split at e
    next n found =>
      obtain ⟨rfl, binding⟩ := Prod.mk.inj e
      obtain rfl := Option.some.inj binding
      exact bound_bindTo sound ((RateStore.active_eq_some sound n).mp found)
    next => exact absurd e refused
  unfold askBank at asked
  split at asked
  · exact active asked
  next point _ =>
    split at asked
    · split at asked
      next n found =>
        obtain ⟨rfl, binding⟩ := Prod.mk.inj asked
        obtain rfl := Option.some.inj binding
        obtain ⟨ready, -⟩ := (RateStore.readyOf_eq_some sound _ n).mp found
        obtain ⟨sound', active', counts, states⟩ := carryOutSwitch_slots sound ready
        have more := bound_bindTo sound' active'
        exact ⟨more.sound, more.active, fun m => by rw [more.count, counts], fun m some _ =>
          more.states m (by rw [counts]; exact some) (states m some)⟩
      next =>
        split at asked
        next n found =>
          obtain ⟨rfl, binding⟩ := Prod.mk.inj asked
          obtain rfl := Option.some.inj binding
          obtain ⟨isActive, -⟩ := (RateStore.activeHas_eq_some sound _ n).mp found
          have cleared : ({ s.rates with switchPoint := none } : RateStore).Sound := sound
          exact (bound_bindTo cleared (by simpa using isActive)).of_slots (RateStore.slot_with _ _ _)
        next => exact absurd asked refused
    · exact active asked

end Sys2Proof.Machine
end

section
/-! The operations on the tables, judged for the piece table: no piece number and no tag twice, the lists apart, one record in RATING,
the binding counts. -/

set_option Elab.async false

namespace Sys2Proof.Machine

/-! ## Notices (R33 to R41) -/

/-- The invariants stand where only the slots changed, and one of them gained the binding of a new record that joins the table. -/
theorem keepsRecords_taken {p : PieceNo} {s u : State} {b : Binding} {r : PieceRecord} (asked : askBank p s = (u, some b))
    (tag : r.tag = s.tracker.nextTag) (absent : r.piece ∉ s.tracker.pieces.map PieceRecord.piece) (bound : r.binding = b)
    (state : r.state = .taken ∨ r.state = .ready) : KeepsRecords s (take r u) := by
  obtain ⟨tracker, intake, engine⟩ := askBank_tables asked
  have once : s.tracker.Sound → (take r u).tracker.Sound := fun sound =>
    take_trackerSound (tracker ▸ sound) (tracker ▸ tag) (tracker ▸ absent)
  have apart : s.RecordsApart → (take r u).RecordsApart := fun ⟨sound, lists⟩ =>
    take_recordsApart ⟨tracker ▸ sound, by simpa [State.ListsApart, tracker, intake] using lists⟩ (tracker ▸ tag) (tracker ▸ absent)
  refine ⟨⟨once, apart, fun counted => ?_⟩, fun ⟨sound, lists, rating⟩ => ?_⟩
  · rw [bindingsCounted_iff] at counted
    obtain ⟨trackerSound, sound, counts⟩ := counted
    have slots := askBank_bound sound asked
    refine take_bindingsCounted (tracker ▸ trackerSound) slots.sound (tracker ▸ tag) (tracker ▸ absent) (bound ▸ slots.active)
      (fun n => ?_) (fun n some => ?_)
    · rw [slots.count, (counts n).1, tracker, bound]
    · rw [tracker] at some
      obtain ⟨count, held⟩ := counts n
      exact slots.states n (by omega) (held some)
  · obtain ⟨sound', lists'⟩ := apart ⟨sound, lists⟩
    obtain ⟨pieces, -, -⟩ := take_tables r u
    refine ⟨sound', lists', sound', fun x mem inRating => ?_⟩
    rw [pieces, (insertRecord_perm r u.tracker.pieces).mem_iff, tracker] at mem
    rcases List.mem_cons.mp mem with rfl | old
    · simp [inRating] at state
    · simpa [engine] using rating.2 x old inRating

/-- An original enters the passing list, its number not in the table. -/
theorem keepsRecords_enterPassing (n : Notice) (s : State) (absent : n.piece ∉ s.tracker.pieces.map PieceRecord.piece) :
    KeepsRecords s (enterPassing n s) := by
  have lists : s.ListsApart → (enterPassing n s).ListsApart := fun apart => by
    rw [listsApart_iff] at apart ⊢
    obtain ⟨once, others⟩ := apart
    have older : (keepNewest 7 (s.intake.passing.filter (fun e => e.piece != n.piece))).Sublist
        (s.intake.passing.filter (fun e => e.piece != n.piece)) := List.drop_sublist _ _
    have kept := older.trans List.filter_sublist
    have passing : (enterPassing n s).intake.passing.map PassingEntry.piece =
        (keepNewest 7 (s.intake.passing.filter (fun e => e.piece != n.piece))).map PassingEntry.piece ++ [n.piece] := by
      simp [enterPassing]
    rw [passing]
    refine ⟨List.Nodup.append (once.sublist (kept.map _)) (by simp) ?_, fun p mem => ?_⟩
    · simp only [List.disjoint_singleton, List.mem_map, not_exists, not_and]
      intro e mem
      simpa using (List.mem_filter.mp (older.mem mem)).2
    · have mem : p ∈ s.tracker.pieces.map PieceRecord.piece := mem
      simp only [List.mem_append, List.mem_singleton, not_or]
      exact ⟨fun there => others p mem ((kept.map _).mem there), fun own => absent (own ▸ mem)⟩
  exact ⟨⟨fun tracker => tracker, fun ⟨tracker, apart⟩ => ⟨tracker, lists apart⟩, fun counted => counted⟩,
    fun ⟨tracker, apart, engine⟩ => ⟨tracker, lists apart, engine⟩⟩

/-- A record at the take is TAKEN or READY (R35, R58). -/
theorem originalRecord_fresh (n : Notice) (b : Binding) (s : State) : (originalRecord n b s).tag = s.tracker.nextTag ∧
    (originalRecord n b s).piece = n.piece ∧ (originalRecord n b s).binding = b ∧
      ((originalRecord n b s).state = .taken ∨ (originalRecord n b s).state = .ready) := by
  unfold originalRecord
  dsimp only
  split
  · exact ⟨rfl, rfl, rfl, .inr rfl⟩
  · exact ⟨rfl, rfl, rfl, .inl rfl⟩

/-- A record at the take of a release is TAKEN or READY (R39, R58). -/
theorem releasedRecord_fresh (n : Notice) (b : Binding) (reference : Position) (s : State) :
    (releasedRecord n b reference s).tag = s.tracker.nextTag ∧ (releasedRecord n b reference s).piece = n.piece ∧
      (releasedRecord n b reference s).binding = b ∧
      ((releasedRecord n b reference s).state = .taken ∨ (releasedRecord n b reference s).state = .ready) := by
  refine ⟨rfl, rfl, rfl, ?_⟩
  unfold releasedRecord
  dsimp only
  split_ifs
  · exact .inr rfl
  · exact .inl rfl

/-- The decision on an original that is no duplicate. -/
theorem keepsRecords_decideOriginal (n : Notice) (s : State) (absent : n.piece ∉ s.tracker.pieces.map PieceRecord.piece) :
    KeepsRecords s (decideOriginal n s).1 := by
  unfold decideOriginal
  split
  · split
    next u b asked =>
      obtain ⟨tracker, -, -⟩ := askBank_tables asked
      obtain ⟨tag, piece, binding, state⟩ := originalRecord_fresh n b u
      exact keepsRecords_taken asked (by rw [tag, tracker]) (piece ▸ absent) binding state
    next u asked =>
      have same := askBank_none asked
      exact KeepsRecords.trans (Undisturbed.of_same same).keeps (keepsRecords_enterPassing n u (same.pieces ▸ absent))
  · exact keepsRecords_enterPassing n s absent

/-- The decision on a release that is no duplicate. -/
theorem keepsRecords_decideReleased (n : Notice) (s : State) (absent : n.piece ∉ s.tracker.pieces.map PieceRecord.piece) :
    KeepsRecords s (decideReleased n s).1 := by
  unfold decideReleased
  split
  · exact (Undisturbed.refl s).keeps
  next e _ =>
    split
    · split
      next u b asked =>
        obtain ⟨tracker, -, -⟩ := askBank_tables asked
        obtain ⟨tag, piece, binding, state⟩ := releasedRecord_fresh n b e.reference u
        exact keepsRecords_taken asked (by rw [tag, tracker]) (piece ▸ absent) binding state
      next u asked => exact (Undisturbed.of_same (askBank_none asked)).keeps
    · exact (Undisturbed.refl s).keeps

/-- A notice. -/
theorem keepsRecords_decideNotice (n : Notice) (s : State) : KeepsRecords s (decideNotice n s).1 := by
  unfold decideNotice
  split
  · exact Undisturbed.keeps {}
  next unknown =>
    have absent : n.piece ∉ s.tracker.pieces.map PieceRecord.piece := fun mem => by
      obtain ⟨r, there, piece⟩ := List.mem_map.mp mem
      refine unknown (List.find?_isSome.mpr ⟨r, there, by simpa using piece⟩)
    split
    · exact keepsRecords_decideOriginal n s absent
    · exact keepsRecords_decideReleased n s absent

/-! ## The checkpoints and the results -/

/-- The commit checkpoint of a record. -/
theorem keepsRecords_commitOf (r : PieceRecord) (s : State) (mem : r ∈ s.tracker.pieces) : KeepsRecords s (commitOf r s) := by
  have missed : ∀ cause serial, KeepsRecords s (missPiece r cause serial s) := fun cause serial =>
    keepsRecords_missPiece _ _ _ _ (holds_of_mem mem)
  have stays : KeepsRecords s s := (Undisturbed.refl s).keeps
  unfold commitOf
  split
  · unfold commitRated
    split
    · have committing := undisturbed_changeRecord r.tag s
        (inPlace_of (change := fun x => { x with state := .committing }) (fun _ => rfl) (by simp))
      exact (committing.trans {}).keeps
    · have judged : Undisturbed s (judgeFunds (lowerPledge r.postage s)) := {}
      exact KeepsRecords.trans judged.keeps (keepsRecords_missPiece _ _ _ _ (judged.holds (holds_of_mem mem)))
  · exact missed _ _
  · exact missed _ _
  · exact missed _ _
  all_goals exact stays

/-- A print path entry that goes disturbs no record. -/
theorem undisturbed_dropPath (serial : Nat) (s : State) : Undisturbed s (dropPath serial s) := {}

/-- A message to the engine disturbs no record. -/
theorem undisturbed_sendEngine (m : EngineMessage) (s : State) : Undisturbed s (sendEngine m s) := {}

/-- The print checkpoint of a record. -/
theorem undisturbed_printOf (r : PieceRecord) (s : State) : Undisturbed s (printOf r s) := by
  unfold printOf
  split
  · split
    · have struck : ∀ serial, Undisturbed s (strike serial s) := fun _ => {}
      exact (struck _).trans (undisturbed_sendEngine _ _)
    · exact .refl s
  all_goals exact .refl s

/-- The result deadline of a record. -/
theorem keepsRecords_deadlineOf (r : PieceRecord) (s : State) (mem : r ∈ s.tracker.pieces) :
    KeepsRecords s (deadlineOf r s) := by
  have stays : KeepsRecords s s := (Undisturbed.refl s).keeps
  unfold deadlineOf
  split
  next serial _ _ =>
    have cancelled := (undisturbed_dropPath serial s).trans (undisturbed_sendEngine (.cancel serial) _)
    exact KeepsRecords.trans cancelled.keeps
      (keepsRecords_requestSlotWrite _ _ _ (cancelled.holds (holds_of_mem mem)))
  all_goals exact stays

/-- An imprint settled. -/
theorem keepsRecords_settle (e : PathEntry) (w : StoreWrite) (s : State) : KeepsRecords s (settle e w s) := by
  have dropped := undisturbed_dropPath e.serial s
  unfold settle
  split
  · exact dropped.keeps
  next r found =>
    split
    · have mem : r ∈ s.tracker.pieces := List.mem_of_find?_eq_some found
      exact KeepsRecords.trans dropped.keeps (keepsRecords_requestSlotWrite _ _ _ (dropped.holds (holds_of_mem mem)))
    · exact dropped.keeps

/-- An IMPRINT DONE. -/
theorem keepsRecords_resultDone (serial : Nat) (s : State) : KeepsRecords s (resultDone serial s) := by
  unfold resultDone
  split
  · exact (Undisturbed.of_same (same_raise .lateResult s)).keeps
  · split
    · exact keepsRecords_settle _ _ s
    · exact KeepsRecords.trans (undisturbed_sendEngine _ s).keeps (keepsRecords_settle _ _ _)

/-- An IMPRINT FAILED. -/
theorem keepsRecords_resultFailed (serial : Nat) (s : State) : KeepsRecords s (resultFailed serial s) := by
  unfold resultFailed
  split
  · exact (Undisturbed.of_same (same_raise .lateResult s)).keeps
  · exact keepsRecords_settle _ _ s

/-! ## The rating (R63 to R67) -/

/-- No record in RATING. -/
theorem piecesSound_of_noneRating {s : State} (apart : s.RecordsApart) (none : ∀ r ∈ s.tracker.pieces, r.state ≠ .rating) :
    s.PiecesSound :=
  ⟨apart.1, apart.2, apart.1, fun r mem rating => absurd rating (none r mem)⟩

/-- A rating started: with an idle engine no record is in RATING, and the first READY one comes to be. -/
theorem keepsRecords_startRating (s : State) : KeepsRecords s (startRating s) := by
  unfold startRating
  split
  · exact (Undisturbed.refl s).keeps
  next idle =>
    split
    · exact (Undisturbed.refl s).keeps
    next r rest queue =>
      have started : SameRecords s { s with engine := some { tag := r.tag, inputs := ratingInputs s r } } := {}
      have same := started.trans (sameRecords_changeRecord (change := fun x => { x with state := .rating }) r.tag _ fun _ => rfl)
      refine ⟨same.keeps, fun ⟨tracker, lists, _, rating⟩ => ?_⟩
      obtain ⟨tracker', lists'⟩ := same.recordsApart ⟨tracker, lists⟩
      refine ⟨tracker', lists', tracker', fun x mem inRating => ?_⟩
      rw [changeRecord_pieces] at mem
      obtain ⟨q, memQ, rfl⟩ := List.mem_map.mp mem
      split at inRating
      next first => simp [first]
      next => simpa [idle] using rating q memQ inRating

/-- A fault applied to the record in RATING (R67). -/
theorem applyFault_noneRating {r : PieceRecord} {s : State} (fault : RatingFault) (serviceClass : Nat)
    (only : ∀ x ∈ s.tracker.pieces, x.state = .rating → x.tag = r.tag) :
    ∀ x ∈ (applyFault r fault serviceClass s).tracker.pieces, x.state ≠ .rating := by
  intro x mem rating
  have left : x ∈ s.tracker.pieces.filter (fun x => x.tag != r.tag) := by
    simpa [applyFault, retire_pieces] using mem
  obtain ⟨there, other⟩ := List.mem_filter.mp left
  simp [only x there rating] at other

/-- A fault applied leaves the records apart and bound (R67). -/
theorem keepsApart_applyFault (r : PieceRecord) (fault : RatingFault) (serviceClass : Nat) (s : State) (held : s.holds r) :
    KeepsApart s (applyFault r fault serviceClass s) := by
  have recorded : SameRecords s (raise .rateFault { s with tracker := { s.tracker with
      lastFault := some { piece := r.piece, fault := fault, serviceClass := serviceClass } } }) := {}
  exact KeepsApart.trans recorded.keeps (keepsRecords_retire _ _ _ _ (recorded.holds held)).toKeepsApart

/-- A result applied leaves the records apart and bound (R66, R67). -/
theorem keepsApart_applyResult (r : PieceRecord) (i : RatingInputs) (s : State) (held : s.holds r) :
    KeepsApart s (applyResult r i s) := by
  unfold applyResult
  split
  · exact keepsApart_applyFault r _ _ s held
  next result flags _ =>
    split
    · exact keepsApart_applyFault r _ _ s held
    · have raised : SameRecords s { s with funds := { s.funds with pledged := s.funds.pledged + result.postage } } := {}
      have rated := raised.trans (sameRecords_changeRecord
        (change := fun x => { x with rating := some result, flags := x.flags.union flags, state := .rated }) r.tag _ fun _ => rfl)
      have judged : ∀ u, SameRecords u (judgeFunds u) := fun _ => {}
      exact (rated.trans (judged _)).keeps

/-- A result applied leaves no record in RATING (R66, R67). -/
theorem applyResult_noneRating {r : PieceRecord} {s : State} (i : RatingInputs)
    (only : ∀ x ∈ s.tracker.pieces, x.state = .rating → x.tag = r.tag) :
    ∀ x ∈ (applyResult r i s).tracker.pieces, x.state ≠ .rating := by
  unfold applyResult
  split
  · exact applyFault_noneRating _ _ only
  next result flags _ =>
    split
    · exact applyFault_noneRating _ _ only
    · intro x mem rating
      have mem : x ∈ s.tracker.pieces.map (fun x => if x.tag = r.tag then
          { x with rating := some result, flags := x.flags.union flags, state := .rated } else x) := by
        simpa [pledge] using mem
      obtain ⟨q, memQ, rfl⟩ := List.mem_map.mp mem
      split at rating
      next => cases rating
      next other => exact other (only q memQ rating)

/-- A result delivered: the engine is idle, and the record in RATING, if the result is for it, RATED or retired. -/
theorem keepsRecords_deliverResult (s : State) : KeepsRecords s (deliverResult s) := by
  unfold deliverResult
  split
  · exact (Undisturbed.refl s).keeps
  next flight busy =>
    have idle : SameRecords s { s with engine := none } := {}
    have inFlight : s.PiecesSound → ∀ x ∈ s.tracker.pieces, x.state = .rating → x.tag = flight.tag :=
      fun ⟨_, _, _, rating⟩ x mem inRating => by simpa [busy, eq_comm] using rating x mem inRating
    have discarded : (s.tracker.Sound → ∀ x ∈ s.tracker.pieces, x.tag = flight.tag → x.state ≠ .rating) →
        KeepsRecords s { s with engine := none } := fun none => ⟨idle.keeps, fun sound =>
      piecesSound_of_noneRating (idle.recordsApart ⟨sound.1, sound.2.1⟩) fun x mem rating =>
        none sound.1 x mem (inFlight sound x mem rating) rating⟩
    dsimp only
    split
    next absent =>
      have absent := List.find?_eq_none.mp absent
      exact discarded fun _ x mem tag => absurd (beq_iff_eq.mpr tag) (absent x mem)
    next r found =>
      have mem : r ∈ s.tracker.pieces := List.mem_of_find?_eq_some found
      have tag : r.tag = flight.tag := by simpa using List.find?_some found
      split
      next inRating =>
        have applied := KeepsApart.trans idle.keeps (keepsApart_applyResult r flight.inputs _ (holds_of_mem mem))
        refine ⟨applied, fun sound => ?_⟩
        refine piecesSound_of_noneRating (applied.apart ⟨sound.1, sound.2.1⟩) (applyResult_noneRating _ ?_)
        exact fun x memX rating => (inFlight sound x memX rating).trans tag.symm
      next other =>
        refine discarded fun sound x memX tagX => ?_
        rwa [List.inj_on_of_nodup_map sound.1 memX mem (tagX.trans tag.symm)]

/-! ## The completions and the failures -/

/-- A write applied disturbs no record. -/
theorem undisturbed_completeWrite (w : StoreWrite) (rest : List StoreWrite) (s : State) :
    Undisturbed s (completeWrite w rest s) := {}

/-- The notice of an open place disturbs no record. -/
theorem undisturbed_placeNotice (s : State) : Undisturbed s (placeNotice s) := {}

/-- A serial given to a record. -/
theorem undisturbed_numbered (tag serial : Nat) (s : State) :
    Undisturbed s (changeRecord tag (fun x => { x with serial := some serial }) s) :=
  undisturbed_changeRecord tag s fun _ => ⟨rfl, id⟩

/-- A COMMIT completed with its print checkpoint reached. -/
theorem keepsRecords_commitLate (r : PieceRecord) (o : OpenImprint) (s : State) (mem : r ∈ s.tracker.pieces) :
    KeepsRecords s (commitLate r o s) := by
  have freed : Undisturbed s { s with freeCount := s.freeCount + 1 } := {}
  have numbered := freed.trans (undisturbed_numbered r.tag o.serial _)
  have held : ∀ {u}, Undisturbed s u → u.holds { r with serial := some o.serial } := fun h => by
    obtain ⟨q, memQ, tag, binding⟩ := h.holds (holds_of_mem mem)
    exact ⟨q, memQ, tag, binding⟩
  unfold commitLate
  dsimp only
  split
  · have noticed := numbered.trans (undisturbed_placeNotice _)
    exact KeepsRecords.trans noticed.keeps (keepsRecords_requestSlotWrite _ _ _ (held noticed))
  · exact KeepsRecords.trans (KeepsRecords.trans numbered.keeps (keepsRecords_requestSlotWrite _ _ _ (held numbered)))
      (undisturbed_placeNotice _).keeps

/-- A COMMIT completed. -/
theorem keepsRecords_commitComplete (postage : Nat) (piece : PieceNo) (job dateCode : Nat) (rest : List StoreWrite) (s : State) :
    KeepsRecords s (commitComplete postage piece job dateCode rest s) := by
  have applied : Undisturbed s (lowerPledge postage (completeWrite (.commit postage piece job dateCode) rest s)) := {}
  unfold commitComplete
  dsimp only
  split
  · exact (applied.trans (undisturbed_placeNotice _)).keeps
  next r found =>
    split
    · exact KeepsRecords.trans applied.keeps (keepsRecords_commitLate _ _ _ (List.mem_of_find?_eq_some found))
    · have committed := fun u => undisturbed_changeRecord r.tag u
        (inPlace_of (change := fun x => { x with serial := some (nextCount s.freeCount s.store.pc), state := .committed })
          (fun _ => rfl) (by simp))
      have path : ∀ (entries : List PathEntry) (u : State),
          Undisturbed u { u with imprint := { u.imprint with path := entries } } := fun _ _ => {}
      exact ((((applied.trans (committed _)).trans (path _ _)).trans (undisturbed_sendEngine _ _)).trans
        (undisturbed_placeNotice _)).keeps

/-- A CLOSE completed. -/
theorem keepsRecords_closeComplete (serial : Nat) (rest : List StoreWrite) (s : State) :
    KeepsRecords s (closeComplete serial rest s) := by
  have applied := undisturbed_completeWrite (.close serial) rest s
  unfold closeComplete
  dsimp only
  split
  · exact (applied.trans (undisturbed_placeNotice _)).keeps
  next r found =>
    have joined : ∀ (u : State) recent, Undisturbed u { u with verify := { u.verify with recent := recent } } := fun _ _ => {}
    have entered := applied.trans (joined _ (joinFranked (frankedEntry r serial) s.verify.recent))
    have held := entered.holds (holds_of_mem (List.mem_of_find?_eq_some found : r ∈ s.tracker.pieces))
    exact KeepsRecords.trans (KeepsRecords.trans entered.keeps (keepsRecords_retire _ _ _ _ held))
      (undisturbed_placeNotice _).keeps

/-- A SPOIL from a slot completed. -/
theorem keepsRecords_spoilSlotComplete (serial : Nat) (reason : SpoilReason) (rest : List StoreWrite) (s : State) :
    KeepsRecords s (spoilSlotComplete serial reason rest s) := by
  have judged : Undisturbed s (judgeSpoils s.store.spoils.length (completeWrite (.spoilSlot serial reason) rest s)) := {}
  refine KeepsRecords.trans (KeepsRecords.trans judged.keeps ?_) (undisturbed_placeNotice _).keeps
  split
  · unfold continueConversion
    split
    all_goals exact Undisturbed.keeps {}
  · unfold finishSpoiled
    split
    · exact (Undisturbed.refl _).keeps
    next r found => exact keepsRecords_retire _ _ _ _ (holds_of_mem (List.mem_of_find?_eq_some found))

/-- A failed slot write. -/
theorem keepsRecords_failSlotWrite (serial : Nat) (s : State) : KeepsRecords s (failSlotWrite serial s) := by
  unfold failSlotWrite
  split
  · exact (Undisturbed.refl _).keeps
  next r found => exact keepsRecords_missPiece _ _ _ _ (holds_of_mem (List.mem_of_find?_eq_some found))

/-- A failed write at the block that asked for it. -/
theorem keepsRecords_failWrite (w : StoreWrite) (s : State) : KeepsRecords s (failWrite s w) := by
  cases w with
  | commit postage piece =>
    have judged : Undisturbed s (judgeFunds (lowerPledge postage s)) := {}
    simp only [failWrite, failCommit]
    split
    · exact judged.keeps
    next r found =>
      exact KeepsRecords.trans judged.keeps
        (keepsRecords_missPiece _ _ _ _ (holds_of_mem (List.mem_of_find?_eq_some found)))
  | close serial => exact keepsRecords_failSlotWrite serial s
  | spoilSlot serial reason =>
    simp only [failWrite]
    split
    · exact (Undisturbed.refl _).keeps
    · exact keepsRecords_failSlotWrite serial s
  | spoilVerdict piece serial value job reason =>
    have waits : Undisturbed s (setFranked serial .spoilPending (some reason) s) := {}
    exact waits.keeps
  | credit | drain => exact (Undisturbed.refl s).keeps
  | spoilUnmatched =>
    have held : ∀ p, Undisturbed s (holdUnmatched p s) := fun _ => {}
    exact (held _).keeps

/-- A failed store write. -/
theorem keepsRecords_failStore (s : State) : KeepsRecords s (failStore s) := by
  have fails : ∀ (writes : List StoreWrite) (u : State), KeepsRecords u (writes.foldl failWrite u) := fun writes => by
    induction writes with
    | nil => exact fun u => (Undisturbed.refl u).keeps
    | cons w rest ih => exact fun u => KeepsRecords.trans (keepsRecords_failWrite w u) (ih _)
  unfold failStore
  split
  · exact (Undisturbed.refl s).keeps
  · have halted : Undisturbed s (raise .storeFault (halt { s with funds := { s.funds with writes := [] } })) := {}
    exact KeepsRecords.trans halted.keeps (fails _ _)

/-! ## The bank commands (R85 to R88) -/

/-- A slot without bindings replaced by another one, sound beside the other slot if the slot before was. -/
theorem keepsRecords_setSlot {n : SlotNo} {v : BankSlot} {rates : RateStore} (s : State)
    (slots : ∀ m, rates.slot m = (s.rates.setSlot n v).slot m)
    (beside : (s.rates.slot n).soundBeside (s.rates.slot n.other) → v.soundBeside (s.rates.slot n.other))
    (unbound : (s.rates.slot n).Sound → (s.rates.slot n).bound = 0) (same : v.bound = (s.rates.slot n).bound) :
    KeepsRecords s { s with rates := rates } := by
  refine ⟨⟨fun tracker => tracker, fun sound => sound, fun counted => ?_⟩, fun sound => sound⟩
  rw [bindingsCounted_iff] at counted ⊢
  obtain ⟨tracker, sound, counts⟩ := counted
  have before := (RateStore.sound_iff _ n).mp sound
  have zero := unbound before.1
  refine ⟨tracker, RateStore.sound_of_slots slots ((RateStore.setSlot_sound _ _ _).mpr (beside before)), fun m => ?_⟩
  rw [slots]
  obtain ⟨count, state⟩ := counts m
  rcases SlotNo.eq_or_other m n with rfl | rfl
  · rw [RateStore.slot_setSlot_same]
    refine ⟨same.trans count, fun (some : 1 ≤ boundTo m s.tracker.pieces) => ?_⟩
    omega
  · rw [RateStore.slot_setSlot_other]
    exact ⟨count, state⟩

/-- An answer disturbs no record. -/
theorem undisturbed_answer (v : Verdict) (further : Further) (d : AnswerData) (s : State) :
    Undisturbed s (answer v further d s) :=
  .of_same (same_answer v further d s)

/-- A slot with no bindings loaded stands beside the other one in LOADING (R80, R85). -/
theorem load_soundBeside {a b : BankSlot} (index : Nat) (part : BankPart)
    (state : a.state = .empty ∨ a.state = .loading ∨ a.state = .ready) (sound : a.soundBeside b) :
    (a.load index part).soundBeside b := by
  obtain ⟨⟨-, unbound, -⟩, other, -, -, needed⟩ := sound
  refine ⟨⟨by simp [BankSlot.load], fun _ => unbound state, by simp [BankSlot.load]⟩, other, by simp [BankSlot.load],
    by simp [BankSlot.load, needsActive], fun kind => ?_⟩
  have active := needed kind
  simp [active] at state

/-- LOAD_BANK_BLOCK (R85, R86). -/
theorem keepsRecords_loadBank (slot index : Nat) (part : BankPart) (s : State) : KeepsRecords s (loadBank slot index part s) := by
  have refused : ∀ v bad, KeepsRecords s (answerSetup v bad s) := fun v bad => (undisturbed_answer _ _ _ s).keeps
  have loaded : ∀ n, ((s.rates.slot n).state = .empty ∨ (s.rates.slot n).state = .loading ∨ (s.rates.slot n).state = .ready) →
      KeepsRecords s (answerSetup .accepted none
        { s with rates := s.rates.setSlot n ((s.rates.slot n).load index part) }) := fun n state => by
    refine KeepsRecords.trans (keepsRecords_setSlot s (fun _ => rfl) (load_soundBeside index part state) (fun sound => ?_) rfl)
      (undisturbed_answer _ _ _ _).keeps
    obtain ⟨-, unbound, -⟩ := sound
    exact unbound state
  unfold loadBank
  split
  · exact refused _ _
  next n _ =>
    split
    · unfold loadInto
      split
      next empty => exact loaded n (.inl empty)
      next loading => exact loaded n (.inr (.inl loading))
      next ready => exact loaded n (.inr (.inr ready))
      all_goals exact refused _ _
    · exact refused _ _

/-- A commit is accepted of a LOADING slot alone (R87). -/
theorem loading_of_commitChecks {resolution : Nat} {slot : BankSlot} (passed : commitChecks resolution slot = none) :
    slot.state = .loading := by
  by_contra other
  simp [commitChecks, other] at passed

/-- A LOADING slot becomes READY beside an ACTIVE one, and ACTIVE beside another (R80, R88). -/
theorem commit_soundBeside {a b : BankSlot} (loading : a.state = .loading) (generation : Nat) (sound : a.soundBeside b) :
    (b.state = .active → ({ a with state := .ready, generation := generation } : BankSlot).soundBeside b) ∧
      (b.state ≠ .active → ({ a with state := .active, generation := generation } : BankSlot).soundBeside b) := by
  obtain ⟨⟨content, unbound, -⟩, other, -, -, needed⟩ := sound
  have filled : a.content ≠ none := fun none => by simp [content.mpr none] at loading
  have zero := unbound (.inr (.inl loading))
  refine ⟨fun active => ⟨⟨by simp [filled], fun _ => zero, by simp⟩, other, by simp, fun _ => active, fun kind => ?_⟩,
    fun inactive => ⟨⟨by simp [filled], by simp, by simp⟩, other, by simp [inactive], by simp [needsActive], fun kind => ?_⟩⟩
  · simp [active] at kind
  · simp [needed kind] at loading

/-- An accepted commit (R88). -/
theorem keepsRecords_acceptCommit (n : SlotNo) (s : State) (loading : (s.rates.slot n).state = .loading) :
    KeepsRecords s (acceptCommit n s) := by
  have unbound : (s.rates.slot n).Sound → (s.rates.slot n).bound = 0 := fun ⟨_, unbound, _⟩ => unbound (.inr (.inl loading))
  unfold acceptCommit
  dsimp only
  split
  next active =>
    exact keepsRecords_setSlot s (fun _ => rfl) (fun sound => (commit_soundBeside loading _ sound).1 active) unbound rfl
  next inactive =>
    refine KeepsRecords.trans (keepsRecords_setSlot s (fun m => ?_)
      (fun sound => (commit_soundBeside loading (s.rates.slot n).bank.header.generation sound).2 inactive) unbound rfl) (Undisturbed.of_same (same_raise _ _)).keeps
    cases m with
    | zero | one => rfl

/-- COMMIT_BANK (R87, R88). -/
theorem keepsRecords_commitBank (slot : Nat) (s : State) : KeepsRecords s (commitBank slot s) := by
  have refused : ∀ v bad, KeepsRecords s (answerSetup v bad s) := fun v bad => (undisturbed_answer _ _ _ s).keeps
  unfold commitBank
  split
  · exact refused _ _
  · split
    · exact refused _ _
    · split
      · exact refused _ _
      next passed =>
        exact KeepsRecords.trans (keepsRecords_acceptCommit _ s (loading_of_commitChecks passed))
          (undisturbed_answer _ _ _ _).keeps

/-! ## The operations that leave the records -/

/-- A JOB CLOSE (R32, R47). -/
theorem undisturbed_closeJob (n : Nat) (s : State) : Undisturbed s (closeJob n s) := by
  have marked : Undisturbed s (markClosed n s) := by
    unfold markClosed
    split
    · exact {}
    · exact .refl s
  have quiescing : ∀ u, Undisturbed u (enterQuiescing u) := fun _ => {}
  unfold closeJob
  split
  · exact marked.trans (quiescing _)
  · exact marked

/-- A verdict (R159 to R162). -/
theorem undisturbed_takeVerdict (p : PieceNo) (station : Nat) (v : VerifyVerdict) (s : State) :
    Undisturbed s (takeVerdict p station v s) := by
  unfold takeVerdict
  split
  · split
    · unfold matchedVerdict
      split
      · split
        all_goals exact {}
      · exact .refl s
    · unfold unmatchedVerdict
      split
      · exact .refl s
      · exact {}
  · exact .refl s

/-- CONFIGURE (R170). -/
theorem undisturbed_configure (c : Configuration) (s : State) : Undisturbed s (configure c s) := by
  have accepted : Undisturbed s (acceptConfiguration c s) := by
    have stored : Undisturbed s { s with mode := .standby, port := { s.port with config := some c } } := {}
    have judged : ∀ u, Undisturbed u (judgeFunds u) := fun _ => {}
    exact stored.trans (judged _)
  unfold configure
  split
  · exact undisturbed_answer _ _ _ s
  · split
    · exact undisturbed_answer _ _ _ s
    · exact undisturbed_answer _ _ _ s
    · exact undisturbed_answer _ _ _ s
    · split
      · exact undisturbed_answer _ _ _ s
      · exact accepted.trans (undisturbed_answer _ _ _ _)

/-- The join switching period is over (R11). -/
theorem undisturbed_joinSwitchComplete (s : State) : Undisturbed s (joinSwitchComplete s) := by
  unfold joinSwitchComplete
  split
  · have switched : Undisturbed s { s with
        loop := { s.loop with switching := none, attach := .attached, receiver := .outside }
        out := { s.out with loopOut := some .cut } } := {}
    have running : ∀ u, Undisturbed u (beginRunning u) := fun u => by
      unfold beginRunning
      split
      · exact .refl u
      · exact {}
    exact (switched.trans (running _)).trans (.of_same (same_raise _ _))
  · exact .refl s

/-- The leave switching period is over (R13). -/
theorem undisturbed_leaveSwitchComplete (s : State) : Undisturbed s (leaveSwitchComplete s) := by
  unfold leaveSwitchComplete
  split
  · exact {}
  · exact .refl s

/-- QUIESCE (R46). -/
theorem undisturbed_quiesceHead (q : QuiesceArg) (s : State) : Undisturbed s (quiesceHead q s) := by
  have quiescing : Undisturbed s (enterQuiescing s) := {}
  have held : ∀ condition, Undisturbed s (holdCondition condition s) := fun _ => {}
  unfold quiesceHead quiesceRunning
  split
  · split
    · exact quiescing.trans (undisturbed_answer _ _ _ _)
    · split_ifs
      · exact undisturbed_answer _ _ _ s
      · exact quiescing.trans (undisturbed_answer _ _ _ _)
      · exact (held _).trans (undisturbed_answer _ _ _ _)
    · split_ifs
      · exact quiescing.trans (undisturbed_answer _ _ _ _)
      · exact (held _).trans (undisturbed_answer _ _ _ _)
    · exact undisturbed_answer _ _ _ s
  · exact undisturbed_answer _ _ _ s

/-- RESUME (R50). -/
theorem undisturbed_resumeHead (s : State) : Undisturbed s (resumeHead s) := by
  have running : Undisturbed s { s with mode := .running, intake := { s.intake with quiesce := .none } } := {}
  unfold resumeHead
  split
  · exact running.trans (undisturbed_answer _ _ _ _)
  · exact undisturbed_answer _ _ _ s

/-- CREDIT and DRAIN_SPOIL (R131, R133). -/
theorem undisturbed_storeCommand (refusal : Option RefusalCode) (w : StoreWrite) (s : State) :
    Undisturbed s (match refusal with
      | some code => answerStore (.refused code) s
      | none => answerStore .accepted (enqueueWrite w s)) := by
  have queued : Undisturbed s (enqueueWrite w s) := {}
  cases refusal with
  | some code => exact undisturbed_answer _ _ _ s
  | none => exact queued.trans (undisturbed_answer _ _ _ _)

/-- No record stands in the table after a restart. -/
theorem Restarted.keepsRecords {s t : State} (h : Restarted s t) : KeepsRecords s t := by
  have reset : State.reset.PiecesSound ∧ State.reset.BindingsCounted :=
    ⟨invariantsHoldAtReset.2.1, invariantsHoldAtReset.2.2.1⟩
  have same : Undisturbed State.reset t :=
    { records := by rw [h.tracker], nextTag := by rw [h.tracker], passing := by rw [h.intake], slot0 := by rw [h.rates],
      slot1 := by rw [h.rates], engine := h.engine, rating := fun r mem => absurd (h.tracker ▸ mem) (List.not_mem_nil) }
  exact ⟨⟨fun _ => same.trackerSound reset.1.1, fun _ => same.recordsApart ⟨reset.1.1, reset.1.2.1⟩,
    fun _ => same.bindingsCounted reset.2⟩,
    fun _ => same.piecesSound reset.1⟩

/-! ## The two obligations -/

/-- Every operation on the tables keeps the records apart and bound. -/
theorem tableOps_keepsRecords : TableOps KeepsRecords where
  before same kept := KeepsRecords.trans (Undisturbed.of_same same).keeps kept
  after kept same := KeepsRecords.trans kept (Undisturbed.of_same same).keeps
  same s := (Undisturbed.refl s).keeps
  notice := keepsRecords_decideNotice
  measure p part s := (undisturbed_reportTo p s (inPlace_measureInto part)).keeps
  address p part s := (undisturbed_reportTo p s (inPlace_addressInto part)).keeps
  jobClose n s := (undisturbed_closeJob n s).keeps
  verdict p station v s := (undisturbed_takeVerdict p station v s).keeps
  cutoff r s _ := by
    unfold cutoffOf
    split
    · exact (undisturbed_changeRecord r.tag s (inPlace_of (change := defaultsInto) (fun _ => rfl) (by simp [defaultsInto]))).keeps
    · exact (Undisturbed.refl s).keeps
  commit := keepsRecords_commitOf
  print r s _ := (undisturbed_printOf r s).keeps
  deadline := keepsRecords_deadlineOf
  start := keepsRecords_startRating
  deliver := keepsRecords_deliverResult
  commitWrite postage piece job dateCode rest s _ := keepsRecords_commitComplete postage piece job dateCode rest s
  closeWrite serial rest s _ := keepsRecords_closeComplete serial rest s
  spoilSlotWrite serial reason rest s _ := keepsRecords_spoilSlotComplete serial reason rest s
  spoilVerdictWrite piece serial value job reason rest s _ := by
    have applied := undisturbed_completeWrite (.spoilVerdict piece serial value job reason) rest s
    have judged : ∀ n u, Undisturbed u (setFranked serial .spoiled none (judgeSpoils n u)) := fun _ _ => {}
    exact ((applied.trans (judged _ _)).trans (undisturbed_placeNotice _)).keeps
  spoilUnmatchedWrite piece rest s _ := by
    have applied := undisturbed_completeWrite (.spoilUnmatched piece) rest s
    have judged : ∀ n u, Undisturbed u (judgeSpoils n u) := fun _ _ => {}
    exact ((applied.trans (judged _ _)).trans (undisturbed_placeNotice _)).keeps
  creditWrite amount rest s _ := by
    have applied := undisturbed_completeWrite (.credit amount) rest s
    have judged : ∀ u, Undisturbed u (judgeFunds u) := fun _ => {}
    exact ((applied.trans (judged _)).trans (undisturbed_placeNotice _)).keeps
  drainWrite sequence rest s _ := by
    have applied := undisturbed_completeWrite (.drain sequence) rest s
    have judged : ∀ n u, Undisturbed u (judgeSpoils n u) := fun _ _ => {}
    exact ((applied.trans (judged _ _)).trans (undisturbed_placeNotice _)).keeps
  failure := keepsRecords_failStore
  readGood s _ := by
    have read : ∀ funds, Undisturbed s { s with funds := funds } := fun _ => {}
    exact (read _).keeps
  readFailed s _ := by
    have unread : ∀ funds, Undisturbed s (raise .storeFault (halt { s with funds := funds })) := fun _ => {}
    exact (unread _).keeps
  done := keepsRecords_resultDone
  failed := keepsRecords_resultFailed
  load := keepsRecords_loadBank
  bank := keepsRecords_commitBank
  configure r s := (undisturbed_configure r s).keeps
  relay l s _ := by
    have moved : Undisturbed s { s with loop := l } := {}
    exact moved.keeps
  joined s := (undisturbed_joinSwitchComplete s).keeps
  left s := (undisturbed_leaveSwitchComplete s).keeps
  quiesce q s := (undisturbed_quiesceHead q s).keeps
  resume s := (undisturbed_resumeHead s).keeps
  credit amount s := (undisturbed_storeCommand _ _ s).keeps
  drain sequence s := (undisturbed_storeCommand _ _ s).keeps
  restart := Restarted.keepsRecords

/-- Settles O5: every operation on the tables keeps the records apart and at most one in RATING. -/
theorem piecesKept : Obligations.PiecesKept :=
  fun _ _ => step_keeps (P := State.PiecesSound) (fun _ _ h => h) fun c s => (tableOps_keepsRecords.effect c s).pieces

/-- Settles O6: every operation on the tables keeps the bindings counted. -/
theorem bindingsKept : Obligations.BindingsKept :=
  fun _ _ => step_keeps (P := State.BindingsCounted) (fun _ _ h => h) fun c s => (tableOps_keepsRecords.effect c s).bindings

end Sys2Proof.Machine
end

section
/-! The account: AR plus DR equals CT, the pledges of the records in RATED and COMMITTING, and the COMMIT writes that go with them
(R119, R122 to R125). -/

set_option Elab.async false

namespace Sys2Proof.Machine

/-! ## Pledges -/

/-- What a record pledges: its piece number, whether it is in COMMITTING, and its postage (R122). -/
def PieceRecord.pledge (r : PieceRecord) : Option (PieceNo × Bool × Nat) :=
  if r.pledges then some (r.piece, r.state == .committing, r.postage) else none

/-- The pledges of a table. -/
def pledgesOf (pieces : List PieceRecord) : List (PieceNo × Bool × Nat) :=
  pieces.filterMap PieceRecord.pledge

/-- A record in RATED. -/
theorem pledge_of_rated {r : PieceRecord} (state : r.state = .rated) : r.pledge = some (r.piece, false, r.postage) := by
  simp [PieceRecord.pledge, PieceRecord.pledges, state]

/-- A record in COMMITTING. -/
theorem pledge_of_committing {r : PieceRecord} (state : r.state = .committing) : r.pledge = some (r.piece, true, r.postage) := by
  simp [PieceRecord.pledge, PieceRecord.pledges, state]

/-- A record in another state pledges nothing. -/
theorem pledge_none {r : PieceRecord} (rated : r.state ≠ .rated) (committing : r.state ≠ .committing) : r.pledge = none := by
  simp [PieceRecord.pledge, PieceRecord.pledges, rated, committing]

/-- What stands for a record in COMMITTING among the pledges. -/
theorem mem_pledgesOf_committing {pieces : List PieceRecord} {p : PieceNo} {n : Nat} :
    (p, true, n) ∈ pledgesOf pieces ↔ ∃ r ∈ pieces, r.piece = p ∧ r.state = .committing ∧ r.postage = n := by
  unfold pledgesOf
  rw [List.mem_filterMap]
  refine exists_congr fun r => and_congr_right fun _ => ?_
  by_cases committing : r.state = .committing
  · simp [pledge_of_committing committing, committing]
  · by_cases rated : r.state = .rated
    · simp [pledge_of_rated rated, rated]
    · simp [pledge_none rated committing, committing]

/-- The sum of the pledges. -/
theorem pledgedSum_eq (pieces : List PieceRecord) : pledgedSum pieces = ((pledgesOf pieces).map fun x => x.2.2).sum := by
  have each : pledgesOf pieces = (pieces.filter PieceRecord.pledges).map
      (fun r => (r.piece, r.state == PieceState.committing, r.postage)) := by
    induction pieces with
    | nil => rfl
    | cons r rest ih =>
      have step : pledgesOf (r :: rest) = r.pledge.toList ++ pledgesOf rest := by
        cases h : r.pledge with
        | none => simp [pledgesOf, h]
        | some x => simp [pledgesOf, h]
      rw [step, ih, List.filter_cons, PieceRecord.pledge]
      split
      · rfl
      · rfl
  simp only [pledgedSum, each, List.map_map]
  rfl

/-- The pieces that pledge are pieces of the table, each once. -/
theorem pledgesOf_nodup {pieces : List PieceRecord} (numbers : (pieces.map PieceRecord.piece).Nodup) :
    ((pledgesOf pieces).map Prod.fst).Nodup := by
  have fewer : ((pledgesOf pieces).map Prod.fst).Sublist (pieces.map PieceRecord.piece) := by
    induction pieces with
    | nil => exact .slnil
    | cons r rest ih =>
      have tail := ih (List.nodup_cons.mp numbers).2
      by_cases pledges : r.pledges = true
      · simpa [pledgesOf, PieceRecord.pledge, pledges] using tail
      · simpa [pledgesOf, PieceRecord.pledge, pledges] using tail.cons r.piece
  exact numbers.sublist fewer

/-- How often a pledge stands among those of a table. -/
theorem count_pledgesOf (pieces : List PieceRecord) (x : PieceNo × Bool × Nat) :
    (pledgesOf pieces).count x = pieces.countP (fun r => r.pledge == some x) := by
  rw [pledgesOf, List.count_filterMap]

/-- The pledge of one record, counted. -/
theorem count_pledge (r : PieceRecord) (x : PieceNo × Bool × Nat) :
    r.pledge.toList.count x = if r.pledge == some x then 1 else 0 := by
  cases r.pledge with
  | none => rfl
  | some y => simp [List.count_singleton]

/-- A record changed: its pledge before is exchanged for its pledge after. -/
theorem pledgesOf_change {pieces : List PieceRecord} {r : PieceRecord} (change : PieceRecord → PieceRecord)
    (tags : (pieces.map PieceRecord.tag).Nodup) (mem : r ∈ pieces) :
    (r.pledge.toList ++ pledgesOf (pieces.map fun x => if x.tag = r.tag then change x else x)).Perm
      ((change r).pledge.toList ++ pledgesOf pieces) := by
  refine List.perm_iff_count.mpr fun x => ?_
  have changed := countP_change (fun q => q.pledge == some x) change pieces r tags mem
  rw [List.count_append, List.count_append, count_pledgesOf, count_pledgesOf, count_pledge, count_pledge]
  omega

/-- A record taken out of the table takes its pledge along. -/
theorem pledgesOf_remove {pieces : List PieceRecord} {r : PieceRecord} (tags : (pieces.map PieceRecord.tag).Nodup) (mem : r ∈ pieces) :
    (r.pledge.toList ++ pledgesOf (pieces.filter fun x => x.tag != r.tag)).Perm (pledgesOf pieces) := by
  refine List.perm_iff_count.mpr fun x => ?_
  have removed := countP_remove (fun q => q.pledge == some x) pieces r tags mem
  rw [List.count_append, count_pledgesOf, count_pledgesOf, count_pledge]
  omega

/-! ## The balance -/

/-- The account balances for a list of pledges and a list of COMMIT writes. -/
structure Balanced (pledges : List (PieceNo × Bool × Nat)) (commits : List (PieceNo × Nat)) (ar dr ct pledged : Nat) : Prop where
  once : (commits.map Prod.fst).Nodup
  matched : ∀ x ∈ commits, (x.1, true, x.2) ∈ pledges
  account : ar + dr = ct
  sum : pledged = (pledges.map fun x => x.2.2).sum
  covered : pledged ≤ dr

namespace Balanced

variable {pledges other : List (PieceNo × Bool × Nat)} {commits : List (PieceNo × Nat)} {ar dr ct pledged n : Nat} {p : PieceNo}

/-- The order of the pledges has no part in it. -/
theorem perm (h : Balanced pledges commits ar dr ct pledged) (same : pledges.Perm other) : Balanced other commits ar dr ct pledged where
  once := h.once
  matched x mem := same.mem_iff.mp (h.matched x mem)
  account := h.account
  sum := h.sum.trans (same.map _).sum_eq
  covered := h.covered

/-- The pledge of a front COMMIT is dropped with it (R73). -/
theorem dropCommit (h : Balanced ((p, true, n) :: pledges) ((p, n) :: commits) ar dr ct pledged) :
    Balanced pledges commits ar dr ct (pledged - n) where
  once := (List.nodup_cons.mp h.once).2
  matched x mem := by
    have there : x.1 ∈ commits.map Prod.fst := List.mem_map_of_mem mem
    have other : x.1 ≠ p := fun same => (List.nodup_cons.mp h.once).1 (same ▸ there)
    simpa [other] using h.matched x (List.mem_cons_of_mem _ mem)
  account := h.account
  sum := by
    have sum := h.sum
    simp only [List.map_cons, List.sum_cons] at sum
    omega
  covered := (Nat.sub_le _ _).trans h.covered

/-- The postage of a front COMMIT is in the pledged total, which DR covers (R122). -/
theorem postage_le (h : Balanced ((p, true, n) :: pledges) commits ar dr ct pledged) : n ≤ pledged := by
  have sum := h.sum
  simp only [List.map_cons, List.sum_cons] at sum
  omega

/-- A COMMIT applied (R127). -/
theorem spend (h : Balanced ((p, true, n) :: pledges) ((p, n) :: commits) ar dr ct pledged) :
    Balanced pledges commits (ar + n) (dr - n) ct (pledged - n) where
  once := h.dropCommit.once
  matched := h.dropCommit.matched
  account := by
    have := h.postage_le
    have := h.covered
    have := h.account
    omega
  sum := h.dropCommit.sum
  covered := Nat.sub_le_sub_right h.covered n

/-- The pledge of a record in RATED returned (R70). -/
theorem release (h : Balanced ((p, false, n) :: pledges) commits ar dr ct pledged) :
    Balanced pledges commits ar dr ct (pledged - n) where
  once := h.once
  matched x mem := by simpa using h.matched x mem
  account := h.account
  sum := by
    have sum := h.sum
    simp only [List.map_cons, List.sum_cons] at sum
    omega
  covered := (Nat.sub_le _ _).trans h.covered

/-- A record in RATED becomes COMMITTING, and its COMMIT joins the queue (R69). -/
theorem commit (h : Balanced ((p, false, n) :: pledges) commits ar dr ct pledged) (fresh : p ∉ pledges.map Prod.fst) :
    Balanced ((p, true, n) :: pledges) (commits ++ [(p, n)]) ar dr ct pledged where
  once := by
    rw [List.map_append]
    refine List.Nodup.append h.once (by simp) ?_
    simp only [List.map_cons, List.map_nil, List.disjoint_singleton, List.mem_map, not_exists, not_and]
    intro x mem same
    have there : (x.1, true, x.2) ∈ pledges := by simpa using h.matched x mem
    exact fresh (same ▸ List.mem_map_of_mem (f := Prod.fst) there)
  matched x mem := by
    rcases List.mem_append.mp mem with old | new
    · have there : (x.1, true, x.2) ∈ pledges := by simpa using h.matched x old
      exact List.mem_cons_of_mem _ there
    · simp [List.mem_singleton.mp new]
  account := h.account
  sum := by simpa using h.sum
  covered := h.covered

/-- A postage pledged that the free funds cover (R66, R123). -/
theorem pledge (h : Balanced pledges commits ar dr ct pledged) (room : pledged + n ≤ dr) :
    Balanced ((p, false, n) :: pledges) commits ar dr ct (pledged + n) where
  once := h.once
  matched x mem := List.mem_cons_of_mem _ (h.matched x mem)
  account := h.account
  sum := by
    have := h.sum
    simp only [List.map_cons, List.sum_cons]
    omega
  covered := room

/-- A CREDIT applied (R132). -/
theorem credit (h : Balanced pledges commits ar dr ct pledged) (amount : Nat) :
    Balanced pledges commits ar (dr + amount) (ct + amount) pledged where
  once := h.once
  matched := h.matched
  account := by
    have := h.account
    omega
  sum := h.sum
  covered := h.covered.trans (Nat.le_add_right _ _)

end Balanced

/-- The account of a state balances with a list of COMMIT writes. -/
def State.BalancedWith (s : State) (commits : List (PieceNo × Nat)) : Prop :=
  s.tracker.Sound ∧ Balanced (pledgesOf s.tracker.pieces) commits s.store.ar s.store.dr s.store.ct s.funds.pledged

/-- The account, with the COMMIT writes of the queue. -/
theorem fundsBalanced_iff (s : State) : s.FundsBalanced ↔ s.BalancedWith (commitsOf s.funds.writes) := by
  unfold State.FundsBalanced State.CommitsMatched State.BalancedWith
  rw [pledgedSum_eq]
  refine and_congr_right fun _ => ⟨fun ⟨⟨once, matched⟩, account, sum, covered⟩ => ?_, fun h => ?_⟩
  · exact ⟨once, fun x mem => mem_pledgesOf_committing.mpr (matched x mem), account, sum, covered⟩
  · exact ⟨⟨h.once, fun x mem => mem_pledgesOf_committing.mp (h.matched x mem)⟩, h.account, h.sum, h.covered⟩

/-! ## COMMIT writes of a queue -/

/-- The COMMIT writes of two queues. -/
@[simp] theorem commitsOf_append (a b : List StoreWrite) : commitsOf (a ++ b) = commitsOf a ++ commitsOf b :=
  List.filterMap_append

/-- Whether a write is a COMMIT. -/
def StoreWrite.isCommit : StoreWrite → Bool
  | .commit .. => true
  | _ => false

/-- A front COMMIT. -/
theorem commitsOf_cons_commit (postage : Nat) (piece : PieceNo) (job dateCode : Nat) (rest : List StoreWrite) :
    commitsOf (.commit postage piece job dateCode :: rest) = (piece, postage) :: commitsOf rest :=
  rfl

/-- Another front write. -/
theorem commitsOf_cons_other {w : StoreWrite} (other : w.isCommit = false) (rest : List StoreWrite) :
    commitsOf (w :: rest) = commitsOf rest := by
  cases w with
  | commit => cases other
  | _ => rfl

/-- A write that is no COMMIT joins the queue. -/
theorem commitsOf_enqueueWrite {w : StoreWrite} (other : w.isCommit = false) (s : State) :
    commitsOf (enqueueWrite w s).funds.writes = commitsOf s.funds.writes := by
  rw [enqueueWrite_writes, commitsOf_append, commitsOf_cons_other other]
  exact List.append_nil _

/-- A waiting spoil asked for again is no COMMIT (R162). -/
theorem retryOne_commits {s t : State} (h : retryOne s = some t) : commitsOf t.funds.writes = commitsOf s.funds.writes := by
  unfold retryOne at h
  split at h
  next isOpen =>
    split at h
    · obtain rfl := Option.some.inj h
      rw [requestVerdict, if_pos isOpen, commitsOf_enqueueWrite rfl]
      simp
    · split at h
      · obtain rfl := Option.some.inj h
        exact commitsOf_enqueueWrite rfl _
      · cases h
  next => cases h

/-- The notice of an open place asks for no COMMIT (R126, R162). -/
@[simp] theorem placeNotice_commits (s : State) : commitsOf (placeNotice s).funds.writes = commitsOf s.funds.writes :=
  placeNotice_induction (fun s t => commitsOf t.funds.writes = commitsOf s.funds.writes) (fun _ _ => rfl)
    (fun _ _ _ asked later => later.trans (retryOne_commits asked)) s

/-! ## Operations that leave the account -/

/-- The second state is as sound and has the pledges and the account of the first. -/
structure SameAccount (s t : State) : Prop where
  tracker : s.tracker.Sound → t.tracker.Sound
  pledges : s.tracker.Sound → (pledgesOf t.tracker.pieces).Perm (pledgesOf s.tracker.pieces)
  ar : t.store.ar = s.store.ar
  dr : t.store.dr = s.store.dr
  ct : t.store.ct = s.store.ct
  pledged : t.funds.pledged = s.funds.pledged

/-- It balances with the same COMMIT writes. -/
theorem SameAccount.balancedWith {s t : State} (h : SameAccount s t) {commits : List (PieceNo × Nat)} (before : s.BalancedWith commits) :
    t.BalancedWith commits := by
  obtain ⟨sound, balanced⟩ := before
  unfold State.BalancedWith
  rw [h.ar, h.dr, h.ct, h.pledged]
  exact ⟨h.tracker sound, balanced.perm (h.pledges sound).symm⟩

/-- And the COMMIT writes of the queue are the same. -/
structure SameFunds (s t : State) : Prop extends SameAccount s t where
  commits : commitsOf t.funds.writes = commitsOf s.funds.writes

/-- The account stays balanced. -/
theorem SameFunds.keeps {s t : State} (h : SameFunds s t) (before : s.FundsBalanced) : t.FundsBalanced := by
  rw [fundsBalanced_iff] at before ⊢
  rw [h.commits]
  exact h.balancedWith before

/-- A chain of two. -/
theorem SameFunds.trans {s t u : State} (h : SameFunds s t) (k : SameFunds t u) : SameFunds s u where
  tracker sound := k.tracker (h.tracker sound)
  pledges sound := (k.pledges (h.tracker sound)).trans (h.pledges sound)
  ar := k.ar.trans h.ar
  dr := k.dr.trans h.dr
  ct := k.ct.trans h.ct
  pledged := k.pledged.trans h.pledged
  commits := k.commits.trans h.commits

/-- The piece table, the account and the COMMIT writes are the very same. -/
structure SameBooks (s t : State) : Prop where
  pieces : t.tracker.pieces = s.tracker.pieces := by simp
  nextTag : t.tracker.nextTag = s.tracker.nextTag := by simp
  ar : t.store.ar = s.store.ar := by simp
  dr : t.store.dr = s.store.dr := by simp
  ct : t.store.ct = s.store.ct := by simp
  pledged : t.funds.pledged = s.funds.pledged := by simp
  commits : commitsOf t.funds.writes = commitsOf s.funds.writes := by simp

namespace SameBooks

variable {s t u : State}

/-- Nothing changed. -/
theorem refl (s : State) : SameBooks s s := {}

/-- A chain of two. -/
theorem trans (h : SameBooks s t) (k : SameBooks t u) : SameBooks s u where
  pieces := k.pieces.trans h.pieces
  nextTag := k.nextTag.trans h.nextTag
  ar := k.ar.trans h.ar
  dr := k.dr.trans h.dr
  ct := k.ct.trans h.ct
  pledged := k.pledged.trans h.pledged
  commits := k.commits.trans h.commits

/-- States with the same tables. -/
theorem of_same (h : SameTables s t) : SameBooks s t where
  pieces := h.pieces
  nextTag := h.nextTag
  ar := by rw [h.store]
  dr := by rw [h.store]
  ct := by rw [h.store]
  pledged := h.pledged
  commits := by rw [h.writes]

/-- The same account. -/
theorem funds (h : SameBooks s t) : SameFunds s t where
  tracker sound := by
    unfold Tracker.Sound at sound ⊢
    rw [h.pieces, h.nextTag]
    exact sound
  pledges _ := .of_eq (by rw [h.pieces])
  ar := h.ar
  dr := h.dr
  ct := h.ct
  pledged := h.pledged
  commits := h.commits

end SameBooks

end Sys2Proof.Machine
end

section
/-! The account: what each operation on the tables does to it. -/

set_option Elab.async false

namespace Sys2Proof.Machine

/-! ## Records that pledge nothing, and changes that leave the pledges -/

/-- Records that pledge the same, one by one. -/
theorem pledgesOf_map_of_same {pieces : List PieceRecord} {change : PieceRecord → PieceRecord} {tag : Nat}
    (same : ∀ r ∈ pieces, r.tag = tag → (change r).pledge = r.pledge) :
    pledgesOf (pieces.map fun r => if r.tag = tag then change r else r) = pledgesOf pieces := by
  rw [pledgesOf, List.filterMap_map]
  refine List.filterMap_congr fun r mem => ?_
  simp only [Function.comp]
  split
  next own => exact same r mem own
  next => rfl

/-- A record changed in what is neither its tag, its piece number nor its pledge. -/
theorem sameFunds_changeRecord {change : PieceRecord → PieceRecord} (tag : Nat) (s : State)
    (identity : ∀ r, (change r).identity = r.identity)
    (same : ∀ r ∈ s.tracker.pieces, r.tag = tag → (change r).pledge = r.pledge) : SameFunds s (changeRecord tag change s) where
  tracker := (sameRecords_changeRecord tag s identity).trackerSound
  pledges _ := .of_eq (by rw [changeRecord_pieces, pledgesOf_map_of_same same])
  ar := rfl
  dr := rfl
  ct := rfl
  pledged := rfl
  commits := rfl

/-- The table holds a record of the tag, and it pledges nothing. -/
def State.unpledged (s : State) (tag : Nat) : Prop :=
  ∃ q ∈ s.tracker.pieces, q.tag = tag ∧ q.pledge = none

/-- A record of the table that pledges nothing. -/
theorem unpledged_of_mem {s : State} {r : PieceRecord} (mem : r ∈ s.tracker.pieces) (none : r.pledge = none) : s.unpledged r.tag :=
  ⟨r, mem, rfl, none⟩

/-- The one record of its tag (R97). -/
theorem eq_of_tag {s : State} {q r : PieceRecord} (sound : s.tracker.Sound) (memQ : q ∈ s.tracker.pieces)
    (memR : r ∈ s.tracker.pieces) (tag : q.tag = r.tag) : q = r :=
  List.inj_on_of_nodup_map sound.1 memQ memR tag

/-- Every record of the tag pledges nothing. -/
theorem State.unpledged.all {s : State} {tag : Nat} (h : s.unpledged tag) (sound : s.tracker.Sound) :
    ∀ r ∈ s.tracker.pieces, r.tag = tag → r.pledge = none := by
  obtain ⟨q, memQ, tagQ, none⟩ := h
  intro r mem own
  rwa [eq_of_tag sound mem memQ (own.trans tagQ.symm)]

/-- A record changed from a state without a pledge to another one. -/
theorem sameFunds_unpledged {change : PieceRecord → PieceRecord} {tag : Nat} {s : State} (before : s.unpledged tag)
    (identity : ∀ r, (change r).identity = r.identity) (after : ∀ r, (change r).pledge = none) :
    SameFunds s (changeRecord tag change s) where
  tracker := (sameRecords_changeRecord tag s identity).trackerSound
  pledges sound := by
    rw [changeRecord_pieces, pledgesOf_map_of_same fun q mem own => ?_]
    rw [after, before.all sound q mem own]
  ar := rfl
  dr := rfl
  ct := rfl
  pledged := rfl
  commits := rfl

/-- A record that pledges nothing is retired (R77). -/
theorem sameFunds_retire (r : PieceRecord) (kind : FrameKind) (body : List Byte) (s : State) (before : s.unpledged r.tag) :
    SameFunds s (retire r kind body s) where
  tracker sound := by
    have left := trackerSound_filter (fun x => x.tag != r.tag) sound
    simpa [Tracker.Sound] using left
  pledges sound := by
    have same : pledgesOf (s.tracker.pieces.filter fun x => x.tag != r.tag) = pledgesOf s.tracker.pieces := by
      rw [pledgesOf, List.filterMap_filter]
      refine List.filterMap_congr fun q mem => ?_
      by_cases own : q.tag = r.tag
      · simp [own, before.all sound q mem own]
      · simp [own]
    exact .of_eq (by rw [retire_pieces, same])
  ar := by simp
  dr := by simp
  ct := by simp
  pledged := by simp
  commits := by simp

/-- A piece whose record pledges nothing is missed (R71, R76). -/
theorem sameFunds_missPiece (r : PieceRecord) (cause : FrankCause) (serial : Nat) (s : State) (before : s.unpledged r.tag) :
    SameFunds s (missPiece r cause serial s) := by
  have raised : SameBooks s (raise .pieceMissed s) := {}
  exact raised.funds.trans (sameFunds_retire _ _ _ _ before)

/-- A slot write of a record that pledges nothing is asked for (R74, R76). -/
theorem sameFunds_requestSlotWrite {r : PieceRecord} {w : StoreWrite} (s : State) (other : w.isCommit = false)
    (before : s.unpledged r.tag) : SameFunds s (requestSlotWrite r w s) := by
  unfold requestSlotWrite
  split
  · exact sameFunds_missPiece _ _ _ _ before
  · have finishing := sameFunds_unpledged (change := fun x => { x with state := .finishing }) before (fun _ => rfl)
      fun _ => pledge_none (by simp) (by simp)
    have queued : ∀ u, SameBooks u (enqueueWrite w u) := fun u => { commits := commitsOf_enqueueWrite other u }
    exact finishing.trans (queued _).funds

/-! ## The books but for one record -/

/-- The account balances when the record of a tag, which is in the table, is not counted. -/
def State.BalancedBeside (s : State) (tag : Nat) (commits : List (PieceNo × Nat)) : Prop :=
  s.tracker.Sound ∧
    Balanced (pledgesOf (s.tracker.pieces.filter fun x => x.tag != tag)) commits s.store.ar s.store.dr s.store.ct s.funds.pledged

/-- The same books. -/
theorem State.BalancedBeside.of_sameBooks {s t : State} {tag : Nat} {commits : List (PieceNo × Nat)}
    (h : s.BalancedBeside tag commits) (same : SameBooks s t) : t.BalancedBeside tag commits := by
  obtain ⟨sound, balanced⟩ := h
  unfold State.BalancedBeside
  rw [same.pieces, same.ar, same.dr, same.ct, same.pledged]
  exact ⟨same.funds.tracker sound, balanced⟩

/-- The record not counted is changed. -/
theorem State.BalancedBeside.change {s : State} {tag : Nat} {commits : List (PieceNo × Nat)} {change : PieceRecord → PieceRecord}
    (h : s.BalancedBeside tag commits) (identity : ∀ r, (change r).identity = r.identity) :
    (changeRecord tag change s).BalancedBeside tag commits := by
  obtain ⟨sound, balanced⟩ := h
  refine ⟨(sameRecords_changeRecord tag s identity).trackerSound sound, ?_⟩
  have others : ((changeRecord tag change s).tracker.pieces.filter fun x => x.tag != tag) =
      s.tracker.pieces.filter fun x => x.tag != tag := by
    rw [changeRecord_pieces, List.filter_map]
    have tags : ∀ r : PieceRecord, (change r).tag = r.tag := fun r => congrArg Prod.fst (identity r)
    have same : ((fun x : PieceRecord => x.tag != tag) ∘ fun r => if r.tag = tag then change r else r) = fun x => x.tag != tag := by
      funext r
      simp only [Function.comp]
      split
      · rw [tags]
      · rfl
    rw [same]
    refine (List.map_congr_left fun r mem => ?_).trans (List.map_id _)
    have other : r.tag ≠ tag := by simpa using (List.mem_filter.mp mem).2
    simp [other]
  rw [others]
  exact balanced

/-- The record not counted is retired. -/
theorem State.BalancedBeside.retire {s : State} {r : PieceRecord} {commits : List (PieceNo × Nat)} (kind : FrameKind)
    (body : List Byte) (h : s.BalancedBeside r.tag commits) : (retire r kind body s).BalancedWith commits := by
  obtain ⟨sound, balanced⟩ := h
  have left := trackerSound_filter (fun x => x.tag != r.tag) sound
  exact ⟨by simpa [Tracker.Sound] using left, by simpa using balanced⟩

/-- The record not counted is given up. -/
theorem State.BalancedBeside.missPiece {s : State} {r : PieceRecord} {commits : List (PieceNo × Nat)} (cause : FrankCause)
    (serial : Nat) (h : s.BalancedBeside r.tag commits) : (missPiece r cause serial s).BalancedWith commits := by
  have raised : SameBooks s (raise .pieceMissed s) := {}
  exact (h.of_sameBooks raised).retire _ _

/-- The record not counted pledges nothing. -/
theorem State.BalancedBeside.settled {s : State} {tag : Nat} {commits : List (PieceNo × Nat)} (h : s.BalancedBeside tag commits)
    (none : ∀ r ∈ s.tracker.pieces, r.tag = tag → r.pledge = none) : s.BalancedWith commits := by
  obtain ⟨sound, balanced⟩ := h
  have same : pledgesOf (s.tracker.pieces.filter fun x => x.tag != tag) = pledgesOf s.tracker.pieces := by
    rw [pledgesOf, List.filterMap_filter]
    refine List.filterMap_congr fun q mem => ?_
    by_cases own : q.tag = tag
    · simp [own, none q mem own]
    · simp [own]
  exact ⟨sound, same ▸ balanced⟩

/-- The record not counted is changed to a state without a pledge. -/
theorem State.BalancedBeside.changed {s : State} {tag : Nat} {commits : List (PieceNo × Nat)} {change : PieceRecord → PieceRecord}
    (h : s.BalancedBeside tag commits) (identity : ∀ r, (change r).identity = r.identity) (after : ∀ r, (change r).pledge = none) :
    (changeRecord tag change s).BalancedWith commits := by
  refine (h.change identity).settled fun r mem own => ?_
  rw [changeRecord_pieces] at mem
  obtain ⟨q, memQ, rfl⟩ := List.mem_map.mp mem
  split at own
  next same => rw [if_pos same, after]
  next other => exact absurd own other

/-- A slot write of the record not counted is asked for. -/
theorem State.BalancedBeside.requestSlotWrite {s : State} {r : PieceRecord} {commits : List (PieceNo × Nat)} (w : StoreWrite)
    (h : s.BalancedBeside r.tag commits) : (requestSlotWrite r w s).BalancedWith commits := by
  unfold Machine.requestSlotWrite
  split
  · exact h.missPiece _ _
  · exact h.changed (change := fun x => { x with state := .finishing }) (fun _ => rfl) fun _ => pledge_none (by simp) (by simp)

/-- A slot write asked for is no COMMIT (R74). -/
theorem requestSlotWrite_commits {w : StoreWrite} (other : w.isCommit = false) (r : PieceRecord) (s : State) :
    commitsOf (requestSlotWrite r w s).funds.writes = commitsOf s.funds.writes := by
  unfold requestSlotWrite
  split
  · simp
  · exact commitsOf_enqueueWrite other _

/-- A record in RATED not counted, its postage returned (R70). -/
theorem beside_of_rated {s : State} {r : PieceRecord} {commits : List (PieceNo × Nat)} (h : s.BalancedWith commits)
    (mem : r ∈ s.tracker.pieces) (rated : r.state = .rated) : (lowerPledge r.postage s).BalancedBeside r.tag commits := by
  obtain ⟨sound, balanced⟩ := h
  have removed := pledgesOf_remove sound.1 mem
  rw [pledge_of_rated rated] at removed
  exact ⟨sound, (balanced.perm removed.symm).release⟩

/-- The record of a front COMMIT is found: in COMMITTING with its postage. -/
theorem committing?_of_matched {s : State} {p : PieceNo} {n : Nat} {commits : List (PieceNo × Nat)}
    (h : s.BalancedWith ((p, n) :: commits)) :
    ∃ r ∈ s.tracker.pieces, s.committing? p = some r ∧ r.pledge = some (p, true, n) := by
  obtain ⟨⟨-, -, numbers⟩, balanced⟩ := h
  obtain ⟨r, mem, piece, committing, postage⟩ := mem_pledgesOf_committing.mp (balanced.matched _ List.mem_cons_self)
  have there : (s.committing? p).isSome := List.find?_isSome.mpr ⟨r, mem, by simp [piece, committing]⟩
  obtain ⟨q, found⟩ := Option.isSome_iff_exists.mp there
  have memQ : q ∈ s.tracker.pieces := List.mem_of_find?_eq_some found
  have isQ : q.piece = p ∧ q.state = .committing := by simpa using List.find?_some found
  obtain rfl : q = r := List.inj_on_of_nodup_map numbers memQ mem (isQ.1.trans piece.symm)
  exact ⟨q, mem, found, by rw [pledge_of_committing committing, piece, postage]⟩

/-- The record of a front COMMIT not counted: the books balance without both (R73), and with the COMMIT applied (R127). -/
theorem beside_of_committing {s : State} {r : PieceRecord} {p : PieceNo} {n : Nat} {commits : List (PieceNo × Nat)}
    (h : s.BalancedWith ((p, n) :: commits)) (mem : r ∈ s.tracker.pieces) (pledge : r.pledge = some (p, true, n)) :
    Balanced ((p, true, n) :: pledgesOf (s.tracker.pieces.filter fun x => x.tag != r.tag)) ((p, n) :: commits)
      s.store.ar s.store.dr s.store.ct s.funds.pledged := by
  obtain ⟨sound, balanced⟩ := h
  have removed := pledgesOf_remove sound.1 mem
  rw [pledge] at removed
  exact balanced.perm removed.symm

end Sys2Proof.Machine
end

section
/-! The account is kept by every step (R119, R122). -/

set_option Elab.async false

namespace Sys2Proof.Machine

/-! ## The store -/

/-- A spoil record appended leaves the account (R121). -/
theorem append_account (reason : SpoilReason) (piece : PieceNo) (serial value job dateCode : Option Nat) (st : Store) :
    (st.append reason piece serial value job dateCode).ar = st.ar ∧ (st.append reason piece serial value job dateCode).dr = st.dr ∧
      (st.append reason piece serial value job dateCode).ct = st.ct := by
  unfold Store.append
  split
  · exact ⟨rfl, rfl, rfl⟩
  · exact ⟨rfl, rfl, rfl⟩

/-- A slot emptied leaves the account (R128). -/
theorem vacate_account (serial : Nat) (st : Store) :
    (st.vacate serial).ar = st.ar ∧ (st.vacate serial).dr = st.dr ∧ (st.vacate serial).ct = st.ct := by
  unfold Store.vacate
  split_ifs
  · exact ⟨rfl, rfl, rfl⟩
  · exact ⟨rfl, rfl, rfl⟩
  · exact ⟨rfl, rfl, rfl⟩

/-- A slot filled leaves the account (R127). -/
theorem fill_account (o : OpenImprint) (st : Store) :
    (Store.fill o st).ar = st.ar ∧ (Store.fill o st).dr = st.dr ∧ (Store.fill o st).ct = st.ct := by
  unfold Store.fill
  split
  · exact ⟨rfl, rfl, rfl⟩
  · split
    · exact ⟨rfl, rfl, rfl⟩
    · exact ⟨rfl, rfl, rfl⟩

/-- A COMMIT moves its postage from DR to AR (R127). -/
theorem applyCommit_account (free postage : Nat) (piece : PieceNo) (job dateCode : Nat) (st : Store) :
    (st.applyCommit free postage piece job dateCode).ar = st.ar + postage ∧
      (st.applyCommit free postage piece job dateCode).dr = st.dr - postage ∧
      (st.applyCommit free postage piece job dateCode).ct = st.ct :=
  fill_account _ _

/-- Whether a write moves no funds: it is neither a COMMIT nor a CREDIT. -/
def StoreWrite.movesNothing : StoreWrite → Bool
  | .commit .. | .credit _ => false
  | .close _ | .spoilSlot .. | .spoilVerdict .. | .spoilUnmatched _ | .drain _ => true

/-- A write that moves no funds is no COMMIT. -/
theorem StoreWrite.isCommit_of_movesNothing {w : StoreWrite} (h : w.movesNothing = true) : w.isCommit = false := by
  cases w with
  | commit => cases h
  | _ => rfl

/-- A write that moves no funds leaves the account. -/
theorem apply_account {w : StoreWrite} (h : w.movesNothing = true) (free : Nat) (st : Store) :
    (st.apply free w).ar = st.ar ∧ (st.apply free w).dr = st.dr ∧ (st.apply free w).ct = st.ct := by
  cases w with
  | commit | credit => cases h
  | close serial => exact vacate_account serial st
  | spoilSlot serial reason =>
    simp only [Store.apply, Store.applySpoilSlot]
    split
    · obtain ⟨ar, dr, ct⟩ := append_account reason _ _ _ _ _ (st.vacate serial)
      obtain ⟨ar', dr', ct'⟩ := vacate_account serial st
      exact ⟨ar.trans ar', dr.trans dr', ct.trans ct'⟩
    · exact ⟨rfl, rfl, rfl⟩
  | spoilVerdict | spoilUnmatched => exact append_account _ _ _ _ _ _ st
  | drain => exact ⟨rfl, rfl, rfl⟩

/-- The completion of a write that moves no funds. -/
theorem books_completeWrite {w : StoreWrite} {rest : List StoreWrite} {s : State} (h : w.movesNothing = true)
    (queue : s.funds.writes = w :: rest) : SameBooks s (completeWrite w rest s) := by
  obtain ⟨ar, dr, ct⟩ := apply_account h s.freeCount s.store
  exact { ar := ar, dr := dr, ct := ct
          commits := by rw [completeWrite_writes, queue, commitsOf_cons_other (StoreWrite.isCommit_of_movesNothing h)] }

/-! ## Notices -/

/-- A bank asked for leaves the account. -/
theorem books_askBank {p : PieceNo} {s u : State} {b : Option Binding} (asked : askBank p s = (u, b)) : SameBooks s u := by
  obtain ⟨rates, port, changed, -⟩ := askBank_changes p s
  have changed : u = { s with rates := rates, port := port } := by rw [← changed, asked]
  rw [changed]
  exact {}

/-- A record joins the table, and pledges nothing yet. -/
theorem sameFunds_take {r : PieceRecord} (s : State) (tag : r.tag = s.tracker.nextTag)
    (absent : r.piece ∉ s.tracker.pieces.map PieceRecord.piece) (state : r.state = .taken ∨ r.state = .ready) :
    SameFunds s (take r s) where
  tracker sound := take_trackerSound sound tag absent
  pledges _ := by
    obtain ⟨pieces, -, -⟩ := take_tables r s
    have none : r.pledge = none := by
      rcases state with state | state
      · exact pledge_none (by simp [state]) (by simp [state])
      · exact pledge_none (by simp [state]) (by simp [state])
    have joined := (insertRecord_perm r s.tracker.pieces).filterMap PieceRecord.pledge
    rw [pieces]
    exact joined.trans (.of_eq (by simp [pledgesOf, none]))
  ar := by simp
  dr := by simp
  ct := by simp
  pledged := by simp
  commits := by simp

/-- The passing list has no part in the account (R36). -/
theorem books_enterPassing (n : Notice) (s : State) : SameBooks s (enterPassing n s) := by
  have listed : ∀ passing, SameBooks s { s with intake := { s.intake with passing := passing } } := fun _ => {}
  exact listed _

/-- A notice (R33 to R41). -/
theorem sameFunds_decideNotice (n : Notice) (s : State) : SameFunds s (decideNotice n s).1 := by
  unfold decideNotice
  split
  · exact SameBooks.funds {}
  next unknown =>
    have absent : n.piece ∉ s.tracker.pieces.map PieceRecord.piece := fun mem => by
      obtain ⟨r, there, piece⟩ := List.mem_map.mp mem
      exact unknown (List.find?_isSome.mpr ⟨r, there, by simpa using piece⟩)
    split
    · unfold decideOriginal
      split
      · split
        next u b asked =>
          have same := books_askBank asked
          obtain ⟨tag, piece, -, state⟩ := originalRecord_fresh n b u
          exact same.funds.trans (sameFunds_take u tag (by rw [piece, same.pieces]; exact absent) state)
        next u asked => exact ((books_askBank asked).trans (books_enterPassing n u)).funds
      · exact (books_enterPassing n s).funds
    · unfold decideReleased
      split
      · exact (SameBooks.refl s).funds
      next e _ =>
        split
        · split
          next u b asked =>
            have same := books_askBank asked
            obtain ⟨tag, piece, -, state⟩ := releasedRecord_fresh n b e.reference u
            exact same.funds.trans (sameFunds_take u tag (by rw [piece, same.pieces]; exact absent) state)
          next u asked => exact (books_askBank asked).funds
        · exact (SameBooks.refl s).funds

/-! ## Reports and checkpoints -/

/-- A measure report leaves what a record pledges (R59). -/
theorem measureInto_pledge (m : MeasurePart) (r : PieceRecord) : (measureInto m r).pledge = r.pledge := by
  unfold measureInto
  split
  next state _ =>
    rw [pledge_none (r := r) (by simp [state]) (by simp [state])]
    refine pledge_none ?_ ?_
    · dsimp only
      split_ifs
      all_goals simp
    · dsimp only
      split_ifs
      all_goals simp
  all_goals rfl

/-- An address report leaves what a record pledges (R60). -/
theorem addressInto_pledge (a : AddressPart) (r : PieceRecord) : (addressInto a r).pledge = r.pledge := by
  unfold addressInto
  split
  next state _ =>
    rw [pledge_none (r := r) (by simp [state]) (by simp [state])]
    refine pledge_none ?_ ?_
    · dsimp only
      split_ifs
      all_goals simp
    · dsimp only
      split_ifs
      all_goals simp
  all_goals rfl

/-- A report leaves the account (R59 to R61). -/
theorem sameFunds_reportTo {change : PieceRecord → PieceRecord} (p : PieceNo) (s : State) (place : inPlace change)
    (same : ∀ r, (change r).pledge = r.pledge) : SameFunds s (reportTo p change s) := by
  unfold reportTo
  split
  · exact (SameBooks.refl s).funds
  · exact sameFunds_changeRecord _ s (fun r => (place r).1) fun r _ _ => same r

/-- The cutoff of a record (R62). -/
theorem sameFunds_cutoffOf (r : PieceRecord) (s : State) (mem : r ∈ s.tracker.pieces) : SameFunds s (cutoffOf r s) := by
  unfold cutoffOf
  split
  next taken =>
    exact sameFunds_unpledged (change := defaultsInto) (unpledged_of_mem mem (pledge_none (by simp [taken]) (by simp [taken])))
      (fun _ => rfl) fun _ => pledge_none (by simp [defaultsInto]) (by simp [defaultsInto])
  next => exact (SameBooks.refl s).funds

/-- The levels judged leave the account (R140). -/
theorem books_judgeFunds (s : State) : SameBooks s (judgeFunds s) := {}

/-- The commit checkpoint in RATED keeps the account (R69, R70). -/
theorem commitRated_balanced (r : PieceRecord) (s : State) (mem : r ∈ s.tracker.pieces) (rated : r.state = .rated)
    (before : s.FundsBalanced) : (commitRated r s).FundsBalanced := by
  rw [fundsBalanced_iff] at before ⊢
  unfold commitRated
  split
  · obtain ⟨sound, balanced⟩ := before
    have removed := pledgesOf_remove sound.1 mem
    rw [pledge_of_rated rated] at removed
    have changed := pledgesOf_change (fun x => { x with state := .committing }) sound.1 mem
    rw [pledge_of_rated rated, pledge_of_committing (r := { r with state := .committing }) rfl] at changed
    have fresh : r.piece ∉ (pledgesOf (s.tracker.pieces.filter fun x => x.tag != r.tag)).map Prod.fst :=
      (List.nodup_cons.mp ((removed.map Prod.fst).nodup_iff.mpr (pledgesOf_nodup sound.2.2))).1
    have joined := (balanced.perm removed.symm).commit fresh
    refine ⟨(sameRecords_changeRecord (change := fun x => { x with state := .committing }) r.tag s fun _ => rfl).trackerSound sound, ?_⟩
    have after : ((r.piece, true, r.postage) :: pledgesOf (s.tracker.pieces.filter fun x => x.tag != r.tag)).Perm
        (pledgesOf (s.tracker.pieces.map fun x => if x.tag = r.tag then { x with state := .committing } else x)) := by
      refine (List.perm_cons (r.piece, false, r.postage)).mp ?_
      exact (List.Perm.swap _ _ _).trans ((removed.cons _).trans changed.symm)
    have queue : commitsOf (s.funds.writes ++ [.commit r.postage r.piece r.job (s.jobParams r.job).dateCode]) =
        commitsOf s.funds.writes ++ [(r.piece, r.postage)] := commitsOf_append _ _
    simpa [queue] using joined.perm after
  · have beside := (beside_of_rated before mem rated).of_sameBooks (books_judgeFunds _)
    simpa [missPiece, retireReported] using beside.missPiece .pathBusy 0

/-- The commit checkpoint of a record (R69 to R71). -/
theorem commitOf_balanced (r : PieceRecord) (s : State) (mem : r ∈ s.tracker.pieces) (before : s.FundsBalanced) :
    (commitOf r s).FundsBalanced := by
  have missed : r.state ≠ .rated → r.state ≠ .committing → (missPiece r .ratingLate 0 s).FundsBalanced := fun rated committing =>
    (sameFunds_missPiece _ _ _ s (unpledged_of_mem mem (pledge_none rated committing))).keeps before
  unfold commitOf
  split
  next rated => exact commitRated_balanced r s mem rated before
  next state => exact missed (by simp [state]) (by simp [state])
  next state => exact missed (by simp [state]) (by simp [state])
  next state => exact missed (by simp [state]) (by simp [state])
  all_goals exact before

/-- The print checkpoint of a record (R149). -/
theorem books_printOf (r : PieceRecord) (s : State) : SameBooks s (printOf r s) := by
  unfold printOf
  split
  · split
    · exact {}
    · exact .refl s
  all_goals exact .refl s

/-- A record in COMMITTED pledges nothing. -/
theorem unpledged_of_committed {s : State} {r : PieceRecord} (mem : r ∈ s.tracker.pieces) (committed : r.state = .committed) :
    s.unpledged r.tag :=
  unpledged_of_mem mem (pledge_none (by simp [committed]) (by simp [committed]))

/-- The same where the table is the same. -/
theorem SameBooks.unpledged {s t : State} {tag : Nat} (h : SameBooks s t) (before : s.unpledged tag) : t.unpledged tag := by
  unfold State.unpledged
  rw [h.pieces]
  exact before

/-- The result deadline of a record (R154). -/
theorem sameFunds_deadlineOf (r : PieceRecord) (s : State) (mem : r ∈ s.tracker.pieces) : SameFunds s (deadlineOf r s) := by
  unfold deadlineOf
  split
  next serial committed _ =>
    have cancelled : SameBooks s (sendEngine (.cancel serial) (dropPath serial s)) := {}
    exact cancelled.funds.trans (sameFunds_requestSlotWrite _ rfl (cancelled.unpledged (unpledged_of_committed mem committed)))
  all_goals exact (SameBooks.refl s).funds

/-- An imprint settled (R74). -/
theorem sameFunds_settle (e : PathEntry) {w : StoreWrite} (s : State) (other : w.isCommit = false) : SameFunds s (settle e w s) := by
  have dropped : SameBooks s (dropPath e.serial s) := {}
  unfold settle
  split
  · exact dropped.funds
  next r found =>
    have mem : r ∈ s.tracker.pieces := List.mem_of_find?_eq_some found
    split
    next committed =>
      exact dropped.funds.trans (sameFunds_requestSlotWrite _ other (dropped.unpledged (unpledged_of_committed mem committed)))
    next => exact dropped.funds

/-- An IMPRINT DONE (R150, R151, R153). -/
theorem sameFunds_resultDone (serial : Nat) (s : State) : SameFunds s (resultDone serial s) := by
  unfold resultDone
  split
  · exact (SameBooks.of_same (same_raise .lateResult s)).funds
  · split
    · exact sameFunds_settle _ s rfl
    · have cancelled : SameBooks s (sendEngine (.cancel serial) s) := {}
      exact cancelled.funds.trans (sameFunds_settle _ _ rfl)

/-- An IMPRINT FAILED (R152, R153). -/
theorem sameFunds_resultFailed (serial : Nat) (s : State) : SameFunds s (resultFailed serial s) := by
  unfold resultFailed
  split
  · exact (SameBooks.of_same (same_raise .lateResult s)).funds
  · exact sameFunds_settle _ s rfl

/-! ## The rating (R63 to R67) -/

/-- A rating started (R63). -/
theorem sameFunds_startRating (s : State) : SameFunds s (startRating s) := by
  unfold startRating
  split
  · exact (SameBooks.refl s).funds
  · split
    · exact (SameBooks.refl s).funds
    next r rest queue =>
      have started : SameBooks s { s with engine := some { tag := r.tag, inputs := ratingInputs s r } } := {}
      have first : r ∈ s.ratingQueue := queue ▸ List.mem_cons_self
      obtain ⟨mem, ready⟩ := List.mem_filter.mp first
      have ready : r.state = .ready := by simpa using ready
      refine started.funds.trans (sameFunds_unpledged (change := fun x => { x with state := .rating }) (started.unpledged ?_)
        (fun _ => rfl) fun _ => pledge_none (by simp) (by simp))
      exact unpledged_of_mem mem (pledge_none (by simp [ready]) (by simp [ready]))

/-- A result applied to a record in RATING keeps the account (R66, R67, R123). -/
theorem applyResult_balanced (r : PieceRecord) (i : RatingInputs) (s : State) (mem : r ∈ s.tracker.pieces) (rating : r.state = .rating)
    (before : s.FundsBalanced) : (applyResult r i s).FundsBalanced := by
  have none : r.pledge = none := pledge_none (by simp [rating]) (by simp [rating])
  have faulty : ∀ fault serviceClass, (applyFault r fault serviceClass s).FundsBalanced := fun fault serviceClass => by
    have recorded : SameBooks s (raise .rateFault { s with tracker := { s.tracker with
        lastFault := some { piece := r.piece, fault := fault, serviceClass := serviceClass } } }) := {}
    exact (recorded.funds.trans (sameFunds_retire _ _ _ _ (recorded.unpledged (unpledged_of_mem mem none)))).keeps before
  unfold applyResult
  split
  · exact faulty _ _
  next result flags _ =>
    split
    · exact faulty _ _
    next enough =>
      refine (books_judgeFunds _).funds.keeps ?_
      rw [fundsBalanced_iff] at before ⊢
      obtain ⟨sound, balanced⟩ := before
      have room : s.funds.pledged + result.postage ≤ s.store.dr := by simpa [State.fundsBelow] using enough
      have changed := pledgesOf_change
        (fun x => { x with rating := some result, flags := x.flags.union flags, state := .rated }) sound.1 mem
      rw [none, pledge_of_rated (r := { r with rating := some result, flags := r.flags.union flags, state := .rated }) rfl] at changed
      refine ⟨?_, (balanced.pledge room).perm changed.symm⟩
      exact (sameRecords_changeRecord (change := fun x => { x with rating := some result, flags := x.flags.union flags, state := .rated })
        r.tag s fun _ => rfl).trackerSound sound

/-- A result delivered keeps the account (R65). -/
theorem deliverResult_balanced (s : State) (before : s.FundsBalanced) : (deliverResult s).FundsBalanced := by
  unfold deliverResult
  split
  · exact before
  next flight _ =>
    have idle : SameBooks s { s with engine := none } := {}
    dsimp only
    split
    · exact idle.funds.keeps before
    next r found =>
      split
      next rating => exact applyResult_balanced r _ _ (List.mem_of_find?_eq_some found) rating (idle.funds.keeps before)
      next => exact idle.funds.keeps before

/-! ## The completions -/

/-- A COMMIT completed keeps the account (R127). -/
theorem commitComplete_balanced (postage : Nat) (piece : PieceNo) (job dateCode : Nat) (rest : List StoreWrite) (s : State)
    (queue : s.funds.writes = .commit postage piece job dateCode :: rest) (before : s.FundsBalanced) :
    (commitComplete postage piece job dateCode rest s).FundsBalanced := by
  rw [fundsBalanced_iff, queue, commitsOf_cons_commit] at before
  obtain ⟨r, mem, found, pledge⟩ := committing?_of_matched before
  have beside : (lowerPledge postage (completeWrite (.commit postage piece job dateCode) rest s)).BalancedBeside r.tag
      (commitsOf rest) := by
    obtain ⟨ar, dr, ct⟩ := applyCommit_account s.freeCount postage piece job dateCode s.store
    have spent := (beside_of_committing before mem pledge).spend
    rw [← ar, ← dr, ← ct] at spent
    exact ⟨before.1, spent⟩
  unfold commitComplete
  dsimp only
  rw [show (lowerPledge postage (completeWrite (.commit postage piece job dateCode) rest s)).committing? piece = some r from found]
  have noticed : ∀ u, SameBooks u (placeNotice u) := fun _ => {}
  have asked : ∀ (w : StoreWrite) (q : PieceRecord) (u : State), w.isCommit = false → q.tag = r.tag →
      commitsOf u.funds.writes = commitsOf rest → u.BalancedBeside r.tag (commitsOf rest) →
      (requestSlotWrite q w u).FundsBalanced := fun w q u other tag queued besideU => by
    rw [fundsBalanced_iff, requestSlotWrite_commits other, queued]
    exact State.BalancedBeside.requestSlotWrite w (tag ▸ besideU)
  dsimp only
  split
  · unfold commitLate
    dsimp only
    have freed : ∀ u : State, SameBooks u { u with freeCount := u.freeCount + 1 } := fun _ => {}
    have numbered := (beside.of_sameBooks (freed _)).change
      (change := fun x => { x with serial := some (nextCount s.freeCount s.store.pc) }) fun _ => rfl
    split
    · exact asked _ _ _ rfl rfl (by simp) (numbered.of_sameBooks (noticed _))
    · exact (noticed _).funds.keeps (asked _ _ _ rfl rfl (by simp) numbered)
  · unfold commitOnTime requestImprint
    refine (noticed _).funds.keeps ?_
    have requested : ∀ (path : List PathEntry) (m : EngineMessage) (u : State),
        SameBooks u (sendEngine m { u with imprint := { u.imprint with path := path } }) := fun _ _ _ => {}
    refine (requested _ _ _).funds.keeps ?_
    have committed := beside.changed
      (change := fun x => { x with serial := some (nextCount s.freeCount s.store.pc), state := .committed }) (fun _ => rfl)
      fun _ => pledge_none (by simp) (by simp)
    rw [fundsBalanced_iff]
    exact committed

/-- A record found in FINISHING pledges nothing. -/
theorem unpledged_of_finishing {s : State} {r : PieceRecord} {serial : Nat} (found : s.serial? serial .finishing = some r) :
    s.unpledged r.tag := by
  have finishing : r.serial = some serial ∧ r.state = .finishing := by simpa using List.find?_some found
  exact unpledged_of_mem (List.mem_of_find?_eq_some found) (pledge_none (by simp [finishing]) (by simp [finishing]))

/-- A CLOSE completed (R128). -/
theorem sameFunds_closeComplete (serial : Nat) (rest : List StoreWrite) (s : State) (queue : s.funds.writes = .close serial :: rest) :
    SameFunds s (closeComplete serial rest s) := by
  have applied := books_completeWrite rfl queue
  have noticed : ∀ u, SameBooks u (placeNotice u) := fun _ => {}
  unfold closeComplete
  dsimp only
  split
  · exact (applied.trans (noticed _)).funds
  next r found =>
    have joined : ∀ (u : State) recent, SameBooks u { u with verify := { u.verify with recent := recent } } := fun _ _ => {}
    have entered := joined (completeWrite (.close serial) rest s) (joinFranked (frankedEntry r serial) s.verify.recent)
    have retired := entered.funds.trans
      (sameFunds_retire r .frankReport (frankBody r.piece .franked r.postage serial) _ (entered.unpledged (unpledged_of_finishing found)))
    exact (applied.funds.trans retired).trans (noticed _).funds

/-- A SPOIL from a slot completed (R129). -/
theorem sameFunds_spoilSlotComplete (serial : Nat) (reason : SpoilReason) (rest : List StoreWrite) (s : State)
    (queue : s.funds.writes = .spoilSlot serial reason :: rest) : SameFunds s (spoilSlotComplete serial reason rest s) := by
  have noticed : ∀ u, SameBooks u (placeNotice u) := fun _ => {}
  have judged : ∀ n u, SameBooks u (judgeSpoils n u) := fun _ _ => {}
  have applied := (books_completeWrite rfl queue).trans (judged s.store.spoils.length _)
  refine SameFunds.trans (applied.funds.trans ?_) (noticed _).funds
  split
  · unfold continueConversion
    split
    all_goals exact SameBooks.funds {}
  · unfold finishSpoiled
    split
    · exact (SameBooks.refl _).funds
    next r found => exact sameFunds_retire _ _ _ _ (unpledged_of_finishing found)

/-- A CREDIT completed keeps the account (R132). -/
theorem creditComplete_balanced (amount : Nat) (rest : List StoreWrite) (s : State) (queue : s.funds.writes = .credit amount :: rest)
    (before : s.FundsBalanced) : (creditComplete amount rest s).FundsBalanced := by
  have noticed : ∀ u, SameBooks u (placeNotice u) := fun _ => {}
  refine (noticed _).funds.keeps ((books_judgeFunds _).funds.keeps ?_)
  rw [fundsBalanced_iff, queue, commitsOf_cons_other rfl] at before
  obtain ⟨sound, balanced⟩ := before
  exact (fundsBalanced_iff _).mpr ⟨sound, balanced.credit amount⟩

/-! ## The failure (R134) -/

/-- A write that moves no funds failed. -/
theorem sameFunds_failSlotWrite (serial : Nat) (s : State) : SameFunds s (failSlotWrite serial s) := by
  unfold failSlotWrite
  split
  · exact (SameBooks.refl _).funds
  next r found => exact sameFunds_missPiece _ _ _ _ (unpledged_of_finishing found)

/-- A failed front write: the account balances with the COMMIT writes that remain (R73, R134). -/
theorem failWrite_balanced (w : StoreWrite) (rest : List StoreWrite) (s : State) (before : s.BalancedWith (commitsOf (w :: rest))) :
    (failWrite s w).BalancedWith (commitsOf rest) := by
  cases w with
  | commit postage piece job dateCode =>
    rw [commitsOf_cons_commit] at before
    obtain ⟨r, mem, found, pledge⟩ := committing?_of_matched before
    have beside : (lowerPledge postage s).BalancedBeside r.tag (commitsOf rest) :=
      ⟨before.1, (beside_of_committing before mem pledge).dropCommit⟩
    have judged := beside.of_sameBooks (books_judgeFunds _)
    have same : (judgeFunds (lowerPledge postage s)).committing? piece = s.committing? piece := by simp [State.committing?]
    simp only [failWrite, failCommit]
    rw [same, found]
    exact judged.missPiece _ _
  | close serial => exact (sameFunds_failSlotWrite serial s).balancedWith before
  | spoilSlot serial reason =>
    simp only [failWrite]
    split
    · exact before
    · exact (sameFunds_failSlotWrite serial s).balancedWith before
  | spoilVerdict piece serial value job reason =>
    have waits : SameBooks s (setFranked serial .spoilPending (some reason) s) := {}
    exact waits.funds.balancedWith before
  | spoilUnmatched piece =>
    have held : SameBooks s (holdUnmatched piece s) := {}
    exact held.funds.balancedWith before
  | credit | drain => exact before

/-- A failed store write keeps the account (R134). -/
theorem failStore_balanced (s : State) (before : s.FundsBalanced) : (failStore s).FundsBalanced := by
  have fails : ∀ (writes : List StoreWrite) (u : State), u.BalancedWith (commitsOf writes) →
      (writes.foldl failWrite u).BalancedWith [] := fun writes => by
    induction writes with
    | nil => exact fun u h => h
    | cons w rest ih => exact fun u h => ih _ (failWrite_balanced w rest u h)
  unfold failStore
  split
  · exact before
  next w rest queue =>
    rw [fundsBalanced_iff, queue] at before
    have failed := fails (w :: rest) (raise .storeFault (halt { s with funds := { s.funds with writes := [] } })) before
    have halted : failKeeps (raise .storeFault (halt { s with funds := { s.funds with writes := [] } }))
        (raise .storeFault (halt { s with funds := { s.funds with writes := [] } })) :=
      ⟨rfl, rfl, by simp [mem_addEvent], rfl, rfl, rfl, rfl, rfl, rfl⟩
    obtain ⟨-, -, -, -, writes, -⟩ := foldl_failWrite_keeps (w :: rest) _ halted
    rw [fundsBalanced_iff, writes]
    exact failed

end Sys2Proof.Machine
end

section
/-! AccountKept: the remaining operations and the assembly. -/

set_option Elab.async false

namespace Sys2Proof.Machine

/-- An answer leaves the account. -/
theorem books_answer (v : Verdict) (further : Further) (d : AnswerData) (s : State) : SameBooks s (answer v further d s) :=
  .of_same (same_answer v further d s)

/-- A JOB CLOSE (R32, R47). -/
theorem books_closeJob (n : Nat) (s : State) : SameBooks s (closeJob n s) := by
  have marked : SameBooks s (markClosed n s) := by
    unfold markClosed
    split
    · exact {}
    · exact .refl s
  have quiescing : ∀ u, SameBooks u (enterQuiescing u) := fun _ => {}
  unfold closeJob
  split
  · exact marked.trans (quiescing _)
  · exact marked

/-- A verdict asks for no COMMIT (R159 to R162). -/
theorem books_takeVerdict (p : PieceNo) (station : Nat) (v : VerifyVerdict) (s : State) :
    SameBooks s (takeVerdict p station v s) := by
  unfold takeVerdict
  split
  · split
    next e _ =>
      unfold matchedVerdict
      split
      · split
        · exact {}
        next reason _ =>
          have marked : ∀ state, SameBooks s (setFranked e.serial state (some reason) s) := fun _ => {}
          unfold requestVerdict
          split
          · have queued : ∀ u, SameBooks u (enqueueWrite (verdictWrite e reason) u) := fun u =>
              { commits := commitsOf_enqueueWrite rfl u }
            exact (marked _).trans (queued _)
          · exact marked _
      · exact .refl s
    next =>
      unfold unmatchedVerdict
      split
      · exact .refl s
      · have raised : SameBooks s (raise .verifyUnmatched s) := {}
        refine raised.trans ?_
        unfold requestUnmatched
        split
        · exact { commits := commitsOf_enqueueWrite rfl _ }
        · exact {}
  · exact .refl s

/-- CONFIGURE (R170). -/
theorem books_configure (c : Configuration) (s : State) : SameBooks s (configure c s) := by
  have stored : SameBooks s { s with mode := .standby, port := { s.port with config := some c } } := {}
  have accepted : SameBooks s (acceptConfiguration c s) := stored.trans (books_judgeFunds _)
  unfold configure
  split
  · exact books_answer _ _ _ s
  · split
    · exact books_answer _ _ _ s
    · exact books_answer _ _ _ s
    · exact books_answer _ _ _ s
    · split
      · exact books_answer _ _ _ s
      · exact accepted.trans (books_answer _ _ _ _)

/-- LOAD_BANK_BLOCK and COMMIT_BANK change the Rate Store (R85, R88). -/
theorem books_rates (rates : RateStore) (s : State) : SameBooks s { s with rates := rates } := {}

/-- LOAD_BANK_BLOCK (R85, R86). -/
theorem books_loadBank (slot index : Nat) (part : BankPart) (s : State) : SameBooks s (loadBank slot index part s) := by
  unfold loadBank
  split
  · exact books_answer _ _ _ s
  · split
    · unfold loadInto
      split
      · exact (books_rates _ s).trans (books_answer _ _ _ _)
      · exact (books_rates _ s).trans (books_answer _ _ _ _)
      · exact (books_rates _ s).trans (books_answer _ _ _ _)
      all_goals exact books_answer _ _ _ s
    · exact books_answer _ _ _ s

/-- COMMIT_BANK (R87, R88). -/
theorem books_commitBank (slot : Nat) (s : State) : SameBooks s (commitBank slot s) := by
  have accepted : ∀ n, SameBooks s (acceptCommit n s) := fun n => by
    unfold acceptCommit
    dsimp only
    split
    · exact books_rates _ s
    · exact (books_rates _ s).trans (.of_same (same_raise _ _))
  unfold commitBank
  split
  · exact books_answer _ _ _ s
  · split
    · exact books_answer _ _ _ s
    · split
      · exact books_answer _ _ _ s
      · exact (accepted _).trans (books_answer _ _ _ _)

/-- The join switching period is over (R11). -/
theorem books_joinSwitchComplete (s : State) : SameBooks s (joinSwitchComplete s) := by
  unfold joinSwitchComplete
  split
  · have switched : SameBooks s { s with
        loop := { s.loop with switching := none, attach := .attached, receiver := .outside }
        out := { s.out with loopOut := some .cut } } := {}
    have running : ∀ u, SameBooks u (beginRunning u) := fun u => by
      unfold beginRunning
      split
      · exact .refl u
      · exact {}
    exact (switched.trans (running _)).trans (.of_same (same_raise _ _))
  · exact .refl s

/-- The leave switching period is over (R13). -/
theorem books_leaveSwitchComplete (s : State) : SameBooks s (leaveSwitchComplete s) := by
  unfold leaveSwitchComplete
  split
  · exact {}
  · exact .refl s

/-- QUIESCE (R46). -/
theorem books_quiesceHead (q : QuiesceArg) (s : State) : SameBooks s (quiesceHead q s) := by
  have quiescing : SameBooks s (enterQuiescing s) := {}
  have held : ∀ condition, SameBooks s (holdCondition condition s) := fun _ => {}
  unfold quiesceHead quiesceRunning
  split
  · split
    · exact quiescing.trans (books_answer _ _ _ _)
    · split_ifs
      · exact books_answer _ _ _ s
      · exact quiescing.trans (books_answer _ _ _ _)
      · exact (held _).trans (books_answer _ _ _ _)
    · split_ifs
      · exact quiescing.trans (books_answer _ _ _ _)
      · exact (held _).trans (books_answer _ _ _ _)
    · exact books_answer _ _ _ s
  · exact books_answer _ _ _ s

/-- RESUME (R50). -/
theorem books_resumeHead (s : State) : SameBooks s (resumeHead s) := by
  have running : SameBooks s { s with mode := .running, intake := { s.intake with quiesce := .none } } := {}
  unfold resumeHead
  split
  · exact running.trans (books_answer _ _ _ _)
  · exact books_answer _ _ _ s

/-- CREDIT and DRAIN_SPOIL ask for no COMMIT (R131, R133). -/
theorem books_storeCommand (refusal : Option RefusalCode) {w : StoreWrite} (other : w.isCommit = false) (s : State) :
    SameBooks s (match refusal with
      | some code => answerStore (.refused code) s
      | none => answerStore .accepted (enqueueWrite w s)) := by
  have queued : SameBooks s (enqueueWrite w s) := { commits := commitsOf_enqueueWrite other s }
  cases refusal with
  | some code => exact books_answer _ _ _ s
  | none => exact queued.trans (books_answer _ _ _ _)

/-- The conversion holds no COMMIT (R138). -/
theorem conversionWrites_commits (st : Store) : commitsOf (conversionWrites st) = [] := by
  unfold conversionWrites
  split
  · rfl
  · rfl
  · rfl
  · split
    · rfl
    · rfl

/-- A good start-up read (R137). -/
theorem books_readGood (s : State) : SameBooks s (readGood s) where
  pieces := rfl
  nextTag := rfl
  ar := rfl
  dr := rfl
  ct := rfl
  pledged := rfl
  commits := by simp [readGood, conversionWrites_commits]

/-- A failed start-up read (R137). -/
theorem books_readFailed (s : State) : SameBooks s (readFailed s) := by
  have unread : SameBooks s { s with funds := { s.funds with startup := .unread } } := {}
  have halted : ∀ u, SameBooks u (raise .storeFault (halt u)) := fun _ => {}
  exact unread.trans (halted _)

/-- A write cut whole leaves AR plus DR equal to CT (R136). -/
theorem apply_account_balanced {w : StoreWrite} {rest : List StoreWrite} {s : State} (free : Nat)
    (before : s.BalancedWith (commitsOf (w :: rest))) :
    (s.store.apply free w).ar + (s.store.apply free w).dr = (s.store.apply free w).ct := by
  have account := before.2.account
  have still : w.movesNothing = true →
      (s.store.apply free w).ar + (s.store.apply free w).dr = (s.store.apply free w).ct := fun nothing => by
    obtain ⟨ar, dr, ct⟩ := apply_account nothing free s.store
    rw [ar, dr, ct, account]
  cases w with
  | commit postage piece job dateCode =>
    obtain ⟨r, mem, -, pledge⟩ := committing?_of_matched before
    have spent := (beside_of_committing before mem pledge).spend.account
    obtain ⟨ar, dr, ct⟩ := applyCommit_account free postage piece job dateCode s.store
    simp only [Store.apply]
    rw [ar, dr, ct]
    exact spent
  | credit amount =>
    simp only [Store.apply]
    omega
  | close | spoilSlot | spoilVerdict | spoilUnmatched | drain => exact still rfl

/-- After a restart no funds are pledged, and the cut store balances. -/
theorem Restarted.fundsBalanced {s t : State} (h : Restarted s t) (before : s.FundsBalanced) : t.FundsBalanced := by
  rw [fundsBalanced_iff] at before
  have account : t.store.ar + t.store.dr = t.store.ct := by
    have kept := before.2.account
    rcases h.store with same | cut
    · rw [same, kept]
    · rcases cutStore_cases s with same | ⟨w, rest, queue, applied⟩
      · rw [cut, same, kept]
      · rw [cut, applied]
        exact apply_account_balanced _ (queue ▸ before)
  unfold State.FundsBalanced State.CommitsMatched
  rw [h.tracker, h.funds]
  exact ⟨⟨List.nodup_nil, fun r mem => absurd mem List.not_mem_nil, List.nodup_nil⟩,
    ⟨List.nodup_nil, fun x mem => absurd mem List.not_mem_nil⟩, account, rfl, Nat.zero_le _⟩

/-- Every operation on the tables keeps the account. -/
theorem tableOps_fundsBalanced : TableOps fun s t => s.FundsBalanced → t.FundsBalanced where
  before same kept h := kept ((SameBooks.of_same same).funds.keeps h)
  after kept same h := (SameBooks.of_same same).funds.keeps (kept h)
  same _ h := h
  notice n s := (sameFunds_decideNotice n s).keeps
  measure p part s := (sameFunds_reportTo p s (inPlace_measureInto part) (measureInto_pledge part)).keeps
  address p part s := (sameFunds_reportTo p s (inPlace_addressInto part) (addressInto_pledge part)).keeps
  jobClose n s := (books_closeJob n s).funds.keeps
  verdict p station v s := (books_takeVerdict p station v s).funds.keeps
  cutoff r s mem := (sameFunds_cutoffOf r s mem).keeps
  commit := commitOf_balanced
  print r s _ := (books_printOf r s).funds.keeps
  deadline r s mem := (sameFunds_deadlineOf r s mem).keeps
  start s := (sameFunds_startRating s).keeps
  deliver := deliverResult_balanced
  commitWrite := commitComplete_balanced
  closeWrite serial rest s queue := (sameFunds_closeComplete serial rest s queue).keeps
  spoilSlotWrite serial reason rest s queue := (sameFunds_spoilSlotComplete serial reason rest s queue).keeps
  spoilVerdictWrite piece serial value job reason rest s queue := by
    have applied := books_completeWrite rfl queue
    have judged : ∀ n u, SameBooks u (setFranked serial .spoiled none (judgeSpoils n u)) := fun _ _ => {}
    have noticed : ∀ u, SameBooks u (placeNotice u) := fun _ => {}
    exact ((applied.trans (judged _ _)).trans (noticed _)).funds.keeps
  spoilUnmatchedWrite piece rest s queue := by
    have applied := books_completeWrite rfl queue
    have judged : ∀ n u, SameBooks u (placeNotice (judgeSpoils n u)) := fun _ _ => {}
    exact (applied.trans (judged _ _)).funds.keeps
  creditWrite := creditComplete_balanced
  drainWrite sequence rest s queue := by
    have applied := books_completeWrite rfl queue
    have judged : ∀ n u, SameBooks u (placeNotice (judgeSpoils n u)) := fun _ _ => {}
    exact (applied.trans (judged _ _)).funds.keeps
  failure := failStore_balanced
  readGood s _ := (books_readGood s).funds.keeps
  readFailed s _ := (books_readFailed s).funds.keeps
  done serial s := (sameFunds_resultDone serial s).keeps
  failed serial s := (sameFunds_resultFailed serial s).keeps
  load slot index part s := (books_loadBank slot index part s).funds.keeps
  bank slot s := (books_commitBank slot s).funds.keeps
  configure r s := (books_configure r s).funds.keeps
  relay l s _ := by
    have moved : SameBooks s { s with loop := l } := {}
    exact moved.funds.keeps
  joined s := (books_joinSwitchComplete s).funds.keeps
  left s := (books_leaveSwitchComplete s).funds.keeps
  quiesce q s := (books_quiesceHead q s).funds.keeps
  resume s := (books_resumeHead s).funds.keeps
  credit amount s := (books_storeCommand (creditRefusal amount s) rfl s).funds.keeps
  drain sequence s := (books_storeCommand (drainRefusal sequence s) rfl s).funds.keeps
  restart := Restarted.fundsBalanced

/-- Settles O7: every operation on the tables keeps the account. -/
theorem accountKept : Obligations.AccountKept :=
  fun _ _ => step_keeps (P := State.FundsBalanced) (fun _ _ h => h) fun c s => tableOps_fundsBalanced.effect c s

end Sys2Proof.Machine
end

section
/-! The head mode, the attach state and the piece table: what the operations on the tables do to them (sections 1.9 and 3.7, R45 to
R51, R54, R169, R170). The queues of the outgoing link are judged in the next section. -/

set_option Elab.async false

namespace Sys2Proof.Machine

/-- The invariant of ModesKept but for the queues of the outgoing link. -/
structure State.ModesHeld (s : State) : Prop where
  ring : s.loop.AttachSound
  attached : s.ModeAttached
  holds : s.ModeHolds
  config : ∀ c, s.port.config = some c → firstBadField c = none
  count : s.tracker.pieces.length ≤ s.conf.takeLimit

/-- The invariant of ModesKept, with the queues of the outgoing link apart. -/
theorem tableBounded_iff (s : State) : s.TableBounded ↔ s.ModesHeld ∧ s.loop.QueuesSound := by
  unfold State.TableBounded State.ModesSound
  constructor
  · rintro ⟨⟨ring, queues, attached, holds⟩, config, count⟩
    exact ⟨⟨ring, attached, holds, config, count⟩, queues⟩
  · rintro ⟨⟨ring, attached, holds, config, count⟩, queues⟩
    exact ⟨⟨ring, queues, attached, holds⟩, config, count⟩

/-- Two states in the same head mode, standing to the ring alike, with as many pieces. -/
structure SameModes (s t : State) : Prop where
  mode : t.mode = s.mode := by simp
  quiesce : t.intake.quiesce = s.intake.quiesce := by simp
  startup : t.funds.startup = s.funds.startup := by simp
  config : t.port.config = s.port.config := by simp
  ring : s.loop.standsAs t.loop := by simp [LoopPort.standsAs]
  count : t.tracker.pieces.length = s.tracker.pieces.length := by simp

/-- The attach state is sound by what the Loop Port stands as. -/
theorem LoopPort.standsAs.sound {l k : LoopPort} (h : l.standsAs k) (sound : l.AttachSound) : k.AttachSound := by
  obtain ⟨attach, relay, switching⟩ := h
  unfold LoopPort.AttachSound at sound ⊢
  rwa [attach, relay, switching]

namespace SameModes

variable {s t u : State}

/-- Nothing changed. -/
theorem refl (s : State) : SameModes s s := {}

/-- A chain of two. -/
theorem trans (h : SameModes s t) (k : SameModes t u) : SameModes s u where
  mode := k.mode.trans h.mode
  quiesce := k.quiesce.trans h.quiesce
  startup := k.startup.trans h.startup
  config := k.config.trans h.config
  ring := by
    obtain ⟨attach, relay, switching⟩ := h.ring
    obtain ⟨attach', relay', switching'⟩ := k.ring
    exact ⟨attach'.trans attach, relay'.trans relay, switching'.trans switching⟩
  count := k.count.trans h.count

/-- States with the same tables. -/
theorem of_same (h : SameTables s t) : SameModes s t where
  mode := h.mode
  quiesce := h.quiesce
  startup := h.startup
  config := h.config
  ring := h.ring
  count := by rw [h.pieces]

/-- The table is empty in both or in neither. -/
theorem empty_iff (h : SameModes s t) : t.tracker.pieces = [] ↔ s.tracker.pieces = [] := by
  rw [← List.length_eq_zero_iff, ← List.length_eq_zero_iff, h.count]

/-- The modes held before are held after. -/
theorem held (h : SameModes s t) (before : s.ModesHeld) : t.ModesHeld where
  ring := h.ring.sound before.ring
  attached := by
    have attached := before.attached
    unfold State.ModeAttached at attached ⊢
    rw [h.mode, h.ring.1]
    exact attached
  holds := by
    have holds := before.holds
    unfold State.ModeHolds at holds ⊢
    rw [h.mode, h.quiesce, h.startup, h.config, Ne, h.empty_iff]
    exact holds
  config := by
    rw [h.config]
    exact before.config
  count := by
    rw [h.count, State.conf, h.config]
    exact before.count

end SameModes

/-! ## The changes of the mode -/

/-- The head enters HALTED (R51). -/
theorem State.ModesHeld.halt {s : State} (h : s.ModesHeld) : (halt s).ModesHeld where
  ring := h.ring
  attached := by
    unfold State.ModeAttached
    split
    all_goals simp
  holds := ⟨by simp, by simp, by simp, by simp, by simp, by simp⟩
  config := h.config
  count := h.count

/-- What RUNNING, QUIESCING and QUIET have in common: the controller is ATTACHED, configured, and its store is in use. -/
theorem State.ModesHeld.working {s : State} (h : s.ModesHeld) (mode : s.mode ≠ .setup ∧ s.mode ≠ .halted) :
    s.port.config ≠ none ∧ s.funds.startup = .inUse := by
  obtain ⟨-, -, -, configured, -, started⟩ := h.holds
  refine ⟨fun none => ?_, by_contra fun other => ?_⟩
  · exact (configured none).elim mode.1 mode.2
  · exact (started other).elim mode.1 mode.2

/-- In RUNNING and in QUIESCING the controller is ATTACHED. -/
theorem State.ModesHeld.attached_of {s : State} (h : s.ModesHeld) (mode : s.mode = .running ∨ s.mode = .quiescing) :
    s.loop.attach = .attached := by
  have goes := h.attached
  unfold State.ModeAttached at goes
  split at goes
  next => rcases mode with mode | mode <;> simp [mode] at goes
  next => rcases mode with mode | mode <;> simp [mode] at goes
  next attach => exact attach
  next => rcases mode with mode | mode <;> simp [mode] at goes

/-- The modes held in QUIESCING but for the piece it needs. -/
structure State.Quiescing (s : State) : Prop where
  ring : s.loop.AttachSound
  attach : s.loop.attach = .attached
  mode : s.mode = .quiescing
  quiesce : s.intake.quiesce = .none
  config : ∀ c, s.port.config = some c → firstBadField c = none
  configured : s.port.config ≠ none
  startup : s.funds.startup = .inUse
  count : s.tracker.pieces.length ≤ s.conf.takeLimit

/-- With an empty table the head becomes QUIET, and with a piece it stays QUIESCING (R49). -/
theorem State.Quiescing.settleQuiet {s : State} (h : s.Quiescing) : (settleQuiet s).ModesHeld := by
  unfold Machine.settleQuiet
  split
  next quiet =>
    refine (SameModes.of_same (same_raise .quietReached _)).held ⟨h.ring, ?_, ?_, h.config, h.count⟩
    · simp [State.ModeAttached, h.attach]
    · exact ⟨fun _ => quiet.2, by simp, by simp [h.quiesce], fun none => absurd none h.configured, by simp, by simp [h.startup]⟩
  next held =>
    have pieces : s.tracker.pieces ≠ [] := fun empty => held ⟨h.mode, empty⟩
    refine ⟨h.ring, ?_, ?_, h.config, h.count⟩
    · simp [State.ModeAttached, h.attach, h.mode]
    · exact ⟨by simp [h.mode], fun _ => pieces, by simp [h.quiesce], fun none => absurd none h.configured, by simp [h.mode],
        by simp [h.startup]⟩

/-- QUIESCING entered from RUNNING (R46 to R49). -/
theorem State.ModesHeld.enterQuiescing {s : State} (h : s.ModesHeld) (running : s.mode = .running) :
    (enterQuiescing s).ModesHeld := by
  obtain ⟨configured, startup⟩ := h.working ⟨by simp [running], by simp [running]⟩
  have quiescing : ({ s with mode := .quiescing, intake := { s.intake with quiesce := .none } } : State).Quiescing :=
    { ring := h.ring, attach := h.attached_of (.inl running), mode := rfl, quiesce := rfl, config := h.config,
      configured := configured, startup := startup, count := h.count }
  exact quiescing.settleQuiet

/-- A quiesce condition is held in RUNNING only (R46). -/
theorem State.ModesHeld.running_of_held {s : State} (h : s.ModesHeld) (condition : s.intake.quiesce ≠ .none) : s.mode = .running := by
  obtain ⟨-, -, held, -⟩ := h.holds
  exact held condition

/-- The funds levels judged (R48, R140). -/
theorem State.ModesHeld.judgeFunds {s : State} (h : s.ModesHeld) : (judgeFunds s).ModesHeld := by
  have low : ∀ c, (judgeLow c s).ModesHeld := fun c => by
    have marked : ∀ mark, SameModes s { s with funds := { s.funds with lowMark := mark } } := fun _ => {}
    have raised : ∀ u, SameModes u (raise .fundsLow u) := fun u => .of_same (same_raise _ u)
    unfold judgeLow
    split
    · split
      · exact h
      · have fell := (raised _).held ((marked true).held h)
        unfold meetFundsLow
        split
        next condition => exact fell.enterQuiescing (fell.running_of_held (by rw [condition]; simp))
        next => exact fell
    · exact (marked false).held h
  unfold Machine.judgeFunds
  split
  · exact h
  next c _ =>
    have same : ∀ u, SameModes u (judgeOut c u) := fun _ => {}
    exact (same _).held (low c)

/-! ## The changes of the table -/

/-- A record changed (R55). -/
theorem sameModes_changeRecord (tag : Nat) (change : PieceRecord → PieceRecord) (s : State) :
    SameModes s (changeRecord tag change s) := {}

/-- A retirement, which may leave a QUIESCING head without a piece (R49, R77). -/
theorem State.ModesHeld.retire {s : State} (h : s.ModesHeld) (r : PieceRecord) (kind : FrameKind) (body : List Byte) :
    (retire r kind body s).ModesHeld := by
  unfold Machine.retire
  have fewer : (giveAtRetirement kind body (removeRecord r s)).tracker.pieces.length ≤ s.tracker.pieces.length := by
    simpa using List.length_filter_le _ s.tracker.pieces
  have none : s.tracker.pieces = [] → (giveAtRetirement kind body (removeRecord r s)).tracker.pieces = [] := fun empty => by
    simp [empty]
  have limit : (giveAtRetirement kind body (removeRecord r s)).conf = s.conf := by simp [State.conf]
  have ring : s.loop.standsAs (giveAtRetirement kind body (removeRecord r s)).loop := by simp [LoopPort.standsAs]
  by_cases quiescing : s.mode = .quiescing
  · obtain ⟨configured, startup⟩ := h.working ⟨by simp [quiescing], by simp [quiescing]⟩
    obtain ⟨-, -, held, -⟩ := h.holds
    have free : s.intake.quiesce = .none := by_contra fun condition => by simp [quiescing] at held; exact condition held
    refine State.Quiescing.settleQuiet
      { ring := ring.sound h.ring, attach := ring.1.trans (h.attached_of (.inr quiescing)), mode := by simpa using quiescing,
        quiesce := by simpa using free, config := by simpa using h.config, configured := by simpa using configured,
        startup := by simpa using startup, count := limit ▸ fewer.trans h.count }
  · rw [settleQuiet, if_neg (by simp [quiescing])]
    obtain ⟨empty, -, held, configured, unconfigured, started⟩ := h.holds
    refine ⟨ring.sound h.ring, ?_, ?_, by simpa using h.config, limit ▸ fewer.trans h.count⟩
    · have attached := h.attached
      unfold State.ModeAttached at attached ⊢
      rw [ring.1]
      simpa using attached
    · refine ⟨fun mode => none (empty (by simpa using mode)), fun mode => absurd (by simpa using mode) quiescing, ?_, ?_, ?_, ?_⟩
      · simpa using held
      · simpa using configured
      · simpa using unconfigured
      · simpa using started

/-- A piece missed. -/
theorem State.ModesHeld.missPiece {s : State} (h : s.ModesHeld) (r : PieceRecord) (cause : FrankCause) (serial : Nat) :
    (missPiece r cause serial s).ModesHeld :=
  ((SameModes.of_same (same_raise .pieceMissed s)).held h).retire _ _ _

/-- A slot write asked for (R74, R76). -/
theorem State.ModesHeld.requestSlotWrite {s : State} (h : s.ModesHeld) (r : PieceRecord) (w : StoreWrite) :
    (requestSlotWrite r w s).ModesHeld := by
  unfold Machine.requestSlotWrite
  split
  · exact h.missPiece _ _ _
  · have queued : ∀ u, SameModes u (enqueueWrite w u) := fun _ => {}
    exact ((sameModes_changeRecord _ _ s).trans (queued _)).held h

/-- A take in RUNNING below the take limit (R34, R54). -/
theorem State.ModesHeld.take {s : State} (h : s.ModesHeld) (r : PieceRecord) (running : s.mode = .running)
    (room : s.tracker.pieces.length < s.conf.takeLimit) : (take r s).ModesHeld := by
  obtain ⟨pieces, -, -⟩ := take_tables r s
  obtain ⟨configured, startup⟩ := h.working ⟨by simp [running], by simp [running]⟩
  have ring : s.loop.standsAs (Machine.take r s).loop := by simp [LoopPort.standsAs]
  have limit : (Machine.take r s).conf = s.conf := by simp [State.conf]
  have mode : (Machine.take r s).mode = .running := by simpa using running
  refine ⟨ring.sound h.ring, ?_, ⟨by simp [running], by simp [running], fun _ => mode, fun none => absurd (by simpa using none) configured,
    by simp [running], by simp [startup]⟩, by simpa using h.config, ?_⟩
  · simp [State.ModeAttached, h.attached_of (.inl running), running]
  · rw [pieces, limit, (insertRecord_perm r s.tracker.pieces).length_eq]
    exact room

/-- A bank asked for changes no mode. -/
theorem sameModes_askBank {p : PieceNo} {s u : State} {b : Option Binding} (asked : askBank p s = (u, b)) : SameModes s u := by
  obtain ⟨rates, port, changed, config⟩ := askBank_changes p s
  have changed : u = { s with rates := rates, port := port } := by rw [← changed, asked]
  rw [changed]
  exact { config := config }

/-- A notice (R33 to R41). -/
theorem State.ModesHeld.decideNotice {s : State} (h : s.ModesHeld) (n : Notice) : (decideNotice n s).1.ModesHeld := by
  have entered : ∀ u, SameModes u (enterPassing n u) := fun u => by
    have listed : ∀ passing, SameModes u { u with intake := { u.intake with passing := passing } } := fun _ => {}
    exact listed _
  have taken : ∀ {u : State} {b : Option Binding} (r : PieceRecord), askBank n.piece s = (u, b) → s.mode = .running →
      s.tracker.pieces.length < s.conf.takeLimit → (Machine.take r u).ModesHeld := fun {u b} r asked running room => by
    have same := sameModes_askBank asked
    refine (same.held h).take r (same.mode.trans running) ?_
    rw [same.count, State.conf, same.config]
    exact room
  have room : roomForPiece s = true → s.tracker.pieces.length < s.conf.takeLimit := fun room => by
    simp only [roomForPiece, Bool.and_eq_true, decide_eq_true_eq] at room
    exact room.1.1
  unfold Machine.decideNotice
  split
  · have counted : SameModes s (countDuplicate s) := {}
    exact counted.held h
  · split
    · unfold decideOriginal
      split
      next passes =>
        simp only [originalPasses, Bool.and_eq_true, decide_eq_true_eq] at passes
        split
        next asked => exact taken _ asked passes.1.1.1 (room passes.2)
        next asked => exact ((sameModes_askBank asked).trans (entered _)).held h
      next => exact (entered s).held h
    · unfold decideReleased
      split
      · exact h
      · split
        next passes =>
          simp only [releasePasses, Bool.and_eq_true, decide_eq_true_eq] at passes
          split
          next asked => exact taken _ asked passes.1.1.1.1 (room passes.2)
          next asked => exact (sameModes_askBank asked).held h
        next => exact h

end Sys2Proof.Machine
end

section
/-! The head mode and the attach state over every operation on the tables, and the attach changes (R11, R13, R45 to R51, R170). -/

set_option Elab.async false

namespace Sys2Proof.Machine

namespace State.ModesHeld

variable {s : State}

/-! ## The checkpoints, the results and the rating -/

/-- A report (R59 to R61). -/
theorem reportTo (h : s.ModesHeld) (p : PieceNo) (change : PieceRecord → PieceRecord) : (reportTo p change s).ModesHeld := by
  unfold Machine.reportTo
  split
  · exact h
  · exact (sameModes_changeRecord _ _ s).held h

/-- The commit checkpoint of a record (R69 to R71). -/
theorem commitOf (h : s.ModesHeld) (r : PieceRecord) : (commitOf r s).ModesHeld := by
  unfold Machine.commitOf
  split
  · unfold commitRated
    split
    · have queued : ∀ u w, SameModes u (enqueueWrite w u) := fun _ _ => {}
      exact ((sameModes_changeRecord _ _ s).trans (queued _ _)).held h
    · have lowered : SameModes s (lowerPledge r.postage s) := {}
      exact (lowered.held h).judgeFunds.missPiece _ _ _
  · exact h.missPiece _ _ _
  · exact h.missPiece _ _ _
  · exact h.missPiece _ _ _
  all_goals exact h

/-- The print checkpoint of a record (R149). -/
theorem printOf (h : s.ModesHeld) (r : PieceRecord) : (printOf r s).ModesHeld := by
  unfold Machine.printOf
  split
  · split
    · have printed : ∀ serial, SameModes s (sendEngine (.print serial) (strike serial s)) := fun _ => {}
      exact (printed _).held h
    · exact h
  all_goals exact h

/-- The result deadline of a record (R154). -/
theorem deadlineOf (h : s.ModesHeld) (r : PieceRecord) : (deadlineOf r s).ModesHeld := by
  unfold Machine.deadlineOf
  split
  next serial _ _ =>
    have cancelled : SameModes s (sendEngine (.cancel serial) (dropPath serial s)) := {}
    exact (cancelled.held h).requestSlotWrite _ _
  all_goals exact h

/-- An imprint settled (R74). -/
theorem settle (h : s.ModesHeld) (e : PathEntry) (w : StoreWrite) : (settle e w s).ModesHeld := by
  have dropped : SameModes s (dropPath e.serial s) := {}
  unfold Machine.settle
  split
  · exact dropped.held h
  · split
    · exact (dropped.held h).requestSlotWrite _ _
    · exact dropped.held h

/-- An IMPRINT DONE (R150, R151, R153). -/
theorem resultDone (h : s.ModesHeld) (serial : Nat) : (resultDone serial s).ModesHeld := by
  unfold Machine.resultDone
  split
  · exact (SameModes.of_same (same_raise .lateResult s)).held h
  · split
    · exact h.settle _ _
    · have cancelled : SameModes s (sendEngine (.cancel serial) s) := {}
      exact (cancelled.held h).settle _ _

/-- An IMPRINT FAILED (R152, R153). -/
theorem resultFailed (h : s.ModesHeld) (serial : Nat) : (resultFailed serial s).ModesHeld := by
  unfold Machine.resultFailed
  split
  · exact (SameModes.of_same (same_raise .lateResult s)).held h
  · exact h.settle _ _

/-- A rating started (R63). -/
theorem startRating (h : s.ModesHeld) : (startRating s).ModesHeld := by
  unfold Machine.startRating
  split
  · exact h
  · split
    · exact h
    next r _ _ =>
      have started : SameModes s { s with engine := some { tag := r.tag, inputs := ratingInputs s r } } := {}
      exact (started.trans (sameModes_changeRecord _ _ _)).held h

/-- A fault applied (R67). -/
theorem applyFault (h : s.ModesHeld) (r : PieceRecord) (fault : RatingFault) (serviceClass : Nat) :
    (applyFault r fault serviceClass s).ModesHeld := by
  have recorded : SameModes s (raise .rateFault { s with tracker := { s.tracker with
      lastFault := some { piece := r.piece, fault := fault, serviceClass := serviceClass } } }) := {}
  exact (recorded.held h).retire _ _ _

/-- A result delivered (R65). -/
theorem deliverResult (h : s.ModesHeld) : (deliverResult s).ModesHeld := by
  have idle : SameModes s { s with engine := none } := {}
  unfold Machine.deliverResult
  split
  · exact h
  · dsimp only
    split
    · exact idle.held h
    · split
      · unfold applyResult
        split
        · exact (idle.held h).applyFault _ _ _
        · split
          · exact (idle.held h).applyFault _ _ _
          · have pledged : ∀ (u : State) n, SameModes u { u with funds := { u.funds with pledged := n } } := fun _ _ => {}
            exact ((idle.trans ((pledged _ _).trans (sameModes_changeRecord _ _ _))).held h).judgeFunds
      · exact idle.held h

/-! ## The completions, the failure and the start-up read -/

/-- A write applied changes no mode (R124). -/
theorem completeWrite (h : s.ModesHeld) (w : StoreWrite) (rest : List StoreWrite) : (completeWrite w rest s).ModesHeld := by
  have applied : SameModes s (Machine.completeWrite w rest s) := {}
  exact applied.held h

/-- The notice of an open place changes no mode (R126). -/
theorem placeNotice (h : s.ModesHeld) : (placeNotice s).ModesHeld := by
  have noticed : SameModes s (Machine.placeNotice s) := {}
  exact noticed.held h

/-- The spoil levels judged change no mode (R141). -/
theorem judgeSpoils (h : s.ModesHeld) (before : Nat) : (judgeSpoils before s).ModesHeld := by
  have judged : SameModes s (Machine.judgeSpoils before s) := {}
  exact judged.held h

/-- A verify state changes no mode (R158). -/
theorem setFranked (h : s.ModesHeld) (serial : Nat) (state : VerifyState) (reason : Option SpoilReason) :
    (setFranked serial state reason s).ModesHeld := by
  have marked : SameModes s (Machine.setFranked serial state reason s) := {}
  exact marked.held h

/-- A COMMIT completed (R72, R127). -/
theorem commitComplete (h : s.ModesHeld) (postage : Nat) (piece : PieceNo) (job dateCode : Nat) (rest : List StoreWrite) :
    (commitComplete postage piece job dateCode rest s).ModesHeld := by
  have lowered : ∀ u, SameModes u (lowerPledge postage u) := fun _ => {}
  have applied := (lowered _).held (h.completeWrite (.commit postage piece job dateCode) rest)
  unfold Machine.commitComplete
  dsimp only
  split
  · exact applied.placeNotice
  · split
    · have freed : ∀ u : State, SameModes u { u with freeCount := u.freeCount + 1 } := fun _ => {}
      have counted := (freed _).held applied
      unfold commitLate
      dsimp only
      split
      · exact ((sameModes_changeRecord _ _ _).held counted).placeNotice.requestSlotWrite _ _
      · exact (((sameModes_changeRecord _ _ _).held counted).requestSlotWrite _ _).placeNotice
    · have requested : ∀ (path : List PathEntry) (m : EngineMessage) (u : State),
          SameModes u (sendEngine m { u with imprint := { u.imprint with path := path } }) := fun _ _ _ => {}
      exact (((sameModes_changeRecord _ _ _).trans (requested _ _ _)).held applied).placeNotice

/-- A CLOSE completed (R75, R128). -/
theorem closeComplete (h : s.ModesHeld) (serial : Nat) (rest : List StoreWrite) : (closeComplete serial rest s).ModesHeld := by
  have applied := h.completeWrite (.close serial) rest
  unfold Machine.closeComplete
  dsimp only
  split
  · exact applied.placeNotice
  · have joined : ∀ (u : State) recent, SameModes u { u with verify := { u.verify with recent := recent } } := fun _ _ => {}
    exact (((joined _ _).held applied).retire _ _ _).placeNotice

/-- The conversion ends with the store in use (R138). -/
theorem continueConversion (h : s.ModesHeld) : (continueConversion s).ModesHeld := by
  unfold Machine.continueConversion
  split
  · refine ⟨h.ring, h.attached, ?_, h.config, h.count⟩
    obtain ⟨empty, pieces, held, configured, unconfigured, -⟩ := h.holds
    exact ⟨empty, pieces, held, configured, unconfigured, by simp⟩
  · exact h

/-- A SPOIL from a slot completed (R75, R129). -/
theorem spoilSlotComplete (h : s.ModesHeld) (serial : Nat) (reason : SpoilReason) (rest : List StoreWrite) :
    (spoilSlotComplete serial reason rest s).ModesHeld := by
  have applied := (h.completeWrite (.spoilSlot serial reason) rest).judgeSpoils s.store.spoils.length
  refine State.ModesHeld.placeNotice ?_
  split
  · exact applied.continueConversion
  · unfold finishSpoiled
    split
    · exact applied
    · exact applied.retire _ _ _

/-- A failed write (R134). -/
theorem failWrite (h : s.ModesHeld) (w : StoreWrite) : (failWrite s w).ModesHeld := by
  have slot : ∀ serial, (failSlotWrite serial s).ModesHeld := fun serial => by
    unfold failSlotWrite
    split
    · exact h
    · exact h.missPiece _ _ _
  cases w with
  | commit postage piece =>
    have lowered : SameModes s (lowerPledge postage s) := {}
    have judged := (lowered.held h).judgeFunds
    simp only [Machine.failWrite, failCommit]
    split
    · exact judged
    · exact judged.missPiece _ _ _
  | close => exact slot _
  | spoilSlot =>
    simp only [Machine.failWrite]
    split
    · exact h
    · exact slot _
  | spoilVerdict => exact h.setFranked _ _ _
  | spoilUnmatched piece =>
    have held : SameModes s (holdUnmatched piece s) := {}
    exact held.held h
  | credit | drain => exact h

/-- A failed store write halts the head (R51, R134). -/
theorem failStore (h : s.ModesHeld) : (failStore s).ModesHeld := by
  have fails : ∀ (writes : List StoreWrite) (u : State), u.ModesHeld → (writes.foldl Machine.failWrite u).ModesHeld := fun writes => by
    induction writes with
    | nil => exact fun u held => held
    | cons w rest ih => exact fun u held => ih _ (held.failWrite w)
  have emptied : SameModes s { s with funds := { s.funds with writes := [] } } := {}
  unfold Machine.failStore
  split
  · exact h
  · exact fails _ _ ((SameModes.of_same (same_raise .storeFault _)).held (emptied.held h).halt)

/-- A good start-up read (R137). -/
theorem readGood (h : s.ModesHeld) (reading : s.funds.startup = .reading) : (readGood s).ModesHeld := by
  obtain ⟨empty, pieces, held, configured, unconfigured, started⟩ := h.holds
  exact ⟨h.ring, h.attached, ⟨empty, pieces, held, configured, unconfigured, fun _ => started (by simp [reading])⟩, h.config, h.count⟩

/-- A failed start-up read halts the head (R51, R137). -/
theorem readFailed (h : s.ModesHeld) (reading : s.funds.startup = .reading) : (readFailed s).ModesHeld := by
  obtain ⟨empty, pieces, held, configured, unconfigured, started⟩ := h.holds
  have unread : ({ s with funds := { s.funds with startup := .unread } } : State).ModesHeld :=
    ⟨h.ring, h.attached, ⟨empty, pieces, held, configured, unconfigured, fun _ => started (by simp [reading])⟩, h.config, h.count⟩
  exact (SameModes.of_same (same_raise .storeFault _)).held unread.halt

/-! ## The service port -/

/-- An answer changes no mode. -/
theorem answer (h : s.ModesHeld) (v : Verdict) (further : Further) (d : AnswerData) : (answer v further d s).ModesHeld :=
  (SameModes.of_same (same_answer v further d s)).held h

/-- A JOB CLOSE may meet a held condition (R32, R47). -/
theorem closeJob (h : s.ModesHeld) (n : Nat) : (closeJob n s).ModesHeld := by
  have marked : SameModes s (markClosed n s) := by
    unfold markClosed
    split
    · exact {}
    · exact .refl s
  unfold Machine.closeJob
  split
  next condition =>
    exact (marked.held h).enterQuiescing (marked.mode.trans (h.running_of_held (by rw [condition]; simp)))
  next => exact marked.held h

/-- A verdict changes no mode (R159 to R162). -/
theorem takeVerdict (h : s.ModesHeld) (p : PieceNo) (station : Nat) (v : VerifyVerdict) : (takeVerdict p station v s).ModesHeld := by
  unfold Machine.takeVerdict
  split
  · split
    next e _ =>
      unfold matchedVerdict
      split
      · split
        · exact h.setFranked _ _ _
        next reason _ =>
          have asked : SameModes s (requestVerdict e reason s) := {}
          exact asked.held h
      · exact h
    next =>
      unfold unmatchedVerdict
      split
      · exact h
      · have asked : SameModes s (requestUnmatched p (raise .verifyUnmatched s)) := {}
        exact asked.held h
  · exact h

/-- In SETUP the controller is in BYPASS. -/
theorem bypass_of_setup (h : s.ModesHeld) (setup : s.mode = .setup) : s.loop.attach = .bypass := by
  have goes := h.attached
  unfold State.ModeAttached at goes
  split at goes
  next attach => exact attach
  all_goals simp [setup] at goes

/-- CONFIGURE leads from SETUP to STANDBY with a record in range (R170). -/
theorem configure (h : s.ModesHeld) (c : Configuration) : (configure c s).ModesHeld := by
  unfold Machine.configure
  split
  · exact h.answer _ _ _
  next setup =>
    have setup : s.mode = .setup := by simpa using setup
    split
    · exact h.answer _ _ _
    · exact h.answer _ _ _
    · exact h.answer _ _ _
    next inUse =>
      split
      · exact h.answer _ _ _
      next good =>
        obtain ⟨empty, -, held, -⟩ := h.holds
        have none : s.tracker.pieces = [] := empty (.inl setup)
        have free : s.intake.quiesce = .none := by_contra fun condition => by simp [setup] at held; exact condition held
        have stored : ({ s with mode := .standby, port := { s.port with config := some c } } : State).ModesHeld := by
          refine ⟨h.ring, ?_, ⟨fun _ => none, by simp, by simp [free], by simp, by simp, by simp [inUse]⟩, ?_, by simp [none]⟩
          · simp [State.ModeAttached, h.bypass_of_setup setup]
          · intro d same
            rw [← Option.some.inj same]
            exact good
        exact stored.judgeFunds.answer _ _ _

/-- A change of the Rate Store changes no mode. -/
theorem rates (h : s.ModesHeld) (rates : RateStore) : ({ s with rates := rates } : State).ModesHeld := by
  have same : SameModes s { s with rates := rates } := {}
  exact same.held h

/-- LOAD_BANK_BLOCK (R85, R86). -/
theorem loadBank (h : s.ModesHeld) (slot index : Nat) (part : BankPart) : (loadBank slot index part s).ModesHeld := by
  unfold Machine.loadBank
  split
  · exact h.answer _ _ _
  · split
    · unfold loadInto
      split
      · exact (h.rates _).answer _ _ _
      · exact (h.rates _).answer _ _ _
      · exact (h.rates _).answer _ _ _
      all_goals exact h.answer _ _ _
    · exact h.answer _ _ _

/-- COMMIT_BANK (R87, R88). -/
theorem commitBank (h : s.ModesHeld) (slot : Nat) : (commitBank slot s).ModesHeld := by
  have accepted : ∀ n, (acceptCommit n s).ModesHeld := fun n => by
    unfold acceptCommit
    dsimp only
    split
    · exact h.rates _
    · exact (SameModes.of_same (same_raise .bankSwitched _)).held (h.rates _)
  unfold Machine.commitBank
  split
  · exact h.answer _ _ _
  · split
    · exact h.answer _ _ _
    · split
      · exact h.answer _ _ _
      · exact (accepted _).answer _ _ _

/-- QUIESCE (R46). -/
theorem quiesceHead (h : s.ModesHeld) (q : QuiesceArg) : (quiesceHead q s).ModesHeld := by
  unfold Machine.quiesceHead
  split
  next running =>
    have condition : ∀ q, (holdCondition q s).ModesHeld := fun q => by
      obtain ⟨empty, pieces, -, configured, unconfigured, started⟩ := h.holds
      exact ⟨h.ring, h.attached, ⟨empty, pieces, fun _ => running, configured, unconfigured, started⟩, h.config, h.count⟩
    unfold quiesceRunning
    split
    · exact (h.enterQuiescing running).answer _ _ _
    · split_ifs
      · exact h.answer _ _ _
      · exact (h.enterQuiescing running).answer _ _ _
      · exact (condition _).answer _ _ _
    · split_ifs
      · exact (h.enterQuiescing running).answer _ _ _
      · exact (condition _).answer _ _ _
    · exact h.answer _ _ _
  next => exact h.answer _ _ _

/-- In RUNNING, QUIESCING and QUIET the controller is ATTACHED or LEAVING. -/
theorem attached_or_leaving (h : s.ModesHeld) (mode : s.mode = .running ∨ s.mode = .quiescing ∨ s.mode = .quiet) :
    s.loop.attach = .attached ∨ s.loop.attach = .leaving := by
  have goes := h.attached
  unfold State.ModeAttached at goes
  split at goes
  next => rcases mode with mode | mode | mode <;> simp [mode] at goes
  next => rcases mode with mode | mode | mode <;> simp [mode] at goes
  next attach => exact .inl attach
  next attach => exact .inr attach

/-- RESUME leads back to RUNNING (R50). -/
theorem resumeHead (h : s.ModesHeld) : (resumeHead s).ModesHeld := by
  unfold Machine.resumeHead
  split
  next may =>
    obtain ⟨mode, staying⟩ := may
    have attached := (h.attached_or_leaving mode).resolve_right staying
    obtain ⟨configured, startup⟩ := h.working ⟨by rcases mode with mode | mode | mode <;> simp [mode],
      by rcases mode with mode | mode | mode <;> simp [mode]⟩
    have resumed : ({ s with mode := .running, intake := { s.intake with quiesce := .none } } : State).ModesHeld := by
      refine ⟨h.ring, ?_, ⟨by simp, by simp, by simp, fun none => absurd none configured, by simp, by simp [startup]⟩, h.config, h.count⟩
      simp [State.ModeAttached, attached]
    exact resumed.answer _ _ _
  next => exact h.answer _ _ _

/-- CREDIT and DRAIN_SPOIL change no mode (R131, R133). -/
theorem storeCommand (h : s.ModesHeld) (refusal : Option RefusalCode) (w : StoreWrite) :
    (match refusal with
      | some code => answerStore (.refused code) s
      | none => answerStore .accepted (enqueueWrite w s) : State).ModesHeld := by
  have queued : SameModes s (enqueueWrite w s) := {}
  cases refusal with
  | some code => exact h.answer _ _ _
  | none => exact (queued.held h).answer _ _ _

/-! ## The attach changes (R11, R13, R15) -/

/-- A relay that switches for the join stands with JOINING, and one that switches for the leave with LEAVING (R12). -/
theorem attach_of_switching (h : s.ModesHeld) :
    (s.loop.switching = some .join → s.loop.attach = .joining) ∧ (s.loop.switching = some .leave → s.loop.attach = .leaving) := by
  have ring := h.ring
  unfold LoopPort.AttachSound at ring
  split at ring
  next => constructor <;> intro switching <;> simp [switching] at ring
  next attach =>
    refine ⟨fun _ => attach, fun switching => ?_⟩
    simp [switching] at ring
  next => constructor <;> intro switching <;> simp [switching] at ring
  next attach =>
    refine ⟨fun switching => ?_, fun _ => attach⟩
    simp [switching] at ring

/-- The join switching period is over (R11). -/
theorem joinSwitchComplete (h : s.ModesHeld) : (joinSwitchComplete s).ModesHeld := by
  unfold Machine.joinSwitchComplete
  split
  next switching =>
    have joining := h.attach_of_switching.1 switching
    have through : s.loop.relay = .through := by
      have ring := h.ring
      simpa [LoopPort.AttachSound, joining, switching] using ring
    have mode : s.mode = .standby ∨ s.mode = .halted := by simpa [State.ModeAttached, joining] using h.attached
    refine (SameModes.of_same (same_raise .attachChanged _)).held ?_
    unfold beginRunning
    obtain ⟨empty, -, held, configured, -, started⟩ := h.holds
    have free : s.intake.quiesce = .none := by_contra fun condition => by
      have running := held condition
      simp [running] at mode
    split
    next halted =>
      have halted : s.mode = .halted := halted
      exact ⟨⟨through, rfl⟩, by simp [State.ModeAttached, halted],
        ⟨by simp [halted], by simp [halted], by simp [free], by simp [halted], by simp [halted], by simp [halted]⟩, h.config, h.count⟩
    next other =>
      have standby : s.mode = .standby := mode.resolve_right other
      obtain ⟨configured, startup⟩ := h.working ⟨by simp [standby], by simp [standby]⟩
      exact ⟨⟨through, rfl⟩, by simp [State.ModeAttached],
        ⟨by simp, by simp, by simp, fun none => absurd none configured, by simp, by simp [startup]⟩, h.config, h.count⟩
  next => exact h

/-- The leave switching period is over (R13). -/
theorem leaveSwitchComplete (h : s.ModesHeld) : (leaveSwitchComplete s).ModesHeld := by
  unfold Machine.leaveSwitchComplete
  split
  next switching =>
    have leaving := h.attach_of_switching.2 switching
    have bypass : s.loop.relay = .bypass := by
      have ring := h.ring
      simpa [LoopPort.AttachSound, leaving, switching] using ring
    have mode : s.mode = .quiet ∨ s.mode = .halted := by simpa [State.ModeAttached, leaving] using h.attached
    refine (SameModes.of_same (same_raise .attachChanged _)).held ?_
    obtain ⟨empty, -, held, -⟩ := h.holds
    have free : s.intake.quiesce = .none := by_contra fun condition => by
      have running := held condition
      simp [running] at mode
    split
    next halted =>
      exact ⟨⟨bypass, .inl rfl⟩, by simp [State.ModeAttached],
        ⟨by simp, by simp, by simp [free], by simp, by simp, by simp⟩, h.config, h.count⟩
    next other =>
      have quiet : s.mode = .quiet := mode.resolve_right other
      obtain ⟨configured, startup⟩ := h.working ⟨by simp [quiet], by simp [quiet]⟩
      exact ⟨⟨bypass, .inl rfl⟩, by simp [State.ModeAttached],
        ⟨fun _ => empty (.inr (.inr quiet)), by simp, by simp [free], fun none => absurd none configured, by simp, by simp [startup]⟩,
        h.config, h.count⟩
  next => exact h

/-- A change of the attach state or the relay by its test. -/
theorem relay (h : s.ModesHeld) {l : LoopPort} (move : RelayMove s l) : ({ s with loop := l } : State).ModesHeld := by
  have ring := h.ring
  have attached := h.attached
  unfold LoopPort.AttachSound at ring
  unfold State.ModeAttached at attached
  cases move with
  | join standby bypass =>
    rw [bypass] at ring
    exact ⟨.inl ring, .inl standby, h.holds, h.config, h.count⟩
  | joinStart joining still =>
    rw [joining] at attached
    refine ⟨?_, ?_, h.holds, h.config, h.count⟩
    · simp [LoopPort.AttachSound, joining]
    · simpa [State.ModeAttached, joining] using attached
  | leave quiet isAttached =>
    rw [isAttached] at ring
    exact ⟨.inl ring, .inl quiet, h.holds, h.config, h.count⟩
  | leaveStart leaving still =>
    rw [leaving] at attached
    refine ⟨?_, ?_, h.holds, h.config, h.count⟩
    · simp [LoopPort.AttachSound, leaving]
    · simpa [State.ModeAttached, leaving] using attached
  | settled reset =>
    refine ⟨?_, h.attached, h.holds, h.config, h.count⟩
    unfold LoopPort.AttachSound
    split at ring
    next attach =>
      rw [show ({ s.loop with switching := none } : LoopPort).attach = .bypass from attach]
      exact ⟨ring.1, .inl rfl⟩
    next attach =>
      rw [show ({ s.loop with switching := none } : LoopPort).attach = .joining from attach]
      refine .inl ⟨?_, .inl rfl⟩
      simpa [reset] using ring
    next attach => simp [reset] at ring
    next attach => simp [reset] at ring

end State.ModesHeld

/-- The modes after a restart (R15, R51). -/
theorem Restarted.modesHeld {s t : State} (h : Restarted s t) : t.ModesHeld := by
  obtain ⟨switching, loop, reset⟩ := h.loop
  have quiesce : t.intake.quiesce = .none := by
    rw [h.intake]
    rfl
  have config : t.port.config = none := by
    rw [h.port]
    rfl
  have pieces : t.tracker.pieces = [] := by
    rw [h.tracker]
    rfl
  refine ⟨?_, ?_, ⟨fun _ => pieces, by simp [h.mode], by simp [quiesce], fun _ => .inl h.mode, fun _ => config, fun _ => .inl h.mode⟩,
    by simp [config], by simp [pieces]⟩
  · rw [loop]
    exact ⟨rfl, reset⟩
  · unfold State.ModeAttached
    rw [loop]
    exact .inl h.mode

/-- Every operation on the tables keeps the modes. -/
theorem tableOps_modesHeld : TableOps fun s t => s.ModesHeld → t.ModesHeld where
  before same kept h := kept ((SameModes.of_same same).held h)
  after kept same h := (SameModes.of_same same).held (kept h)
  same _ h := h
  notice n _ h := h.decideNotice n
  measure p _ _ h := h.reportTo p _
  address p _ _ h := h.reportTo p _
  jobClose n _ h := h.closeJob n
  verdict p station v _ h := h.takeVerdict p station v
  cutoff r s _ h := by
    unfold cutoffOf
    split
    · exact (sameModes_changeRecord _ _ s).held h
    · exact h
  commit r _ _ h := h.commitOf r
  print r _ _ h := h.printOf r
  deadline r _ _ h := h.deadlineOf r
  start _ h := h.startRating
  deliver _ h := h.deliverResult
  commitWrite postage piece job dateCode rest _ _ h := h.commitComplete postage piece job dateCode rest
  closeWrite serial rest _ _ h := h.closeComplete serial rest
  spoilSlotWrite serial reason rest _ _ h := h.spoilSlotComplete serial reason rest
  spoilVerdictWrite _ _ _ _ _ _ _ _ h := (((h.completeWrite _ _).judgeSpoils _).setFranked _ _ _).placeNotice
  spoilUnmatchedWrite _ _ _ _ h := ((h.completeWrite _ _).judgeSpoils _).placeNotice
  creditWrite _ _ _ _ h := (h.completeWrite _ _).judgeFunds.placeNotice
  drainWrite _ _ _ _ h := ((h.completeWrite _ _).judgeSpoils _).placeNotice
  failure _ h := h.failStore
  readGood _ reading h := h.readGood reading
  readFailed _ reading h := h.readFailed reading
  done serial _ h := h.resultDone serial
  failed serial _ h := h.resultFailed serial
  load slot index part _ h := h.loadBank slot index part
  bank slot _ h := h.commitBank slot
  configure c _ h := h.configure c
  relay _ _ move h := h.relay move
  joined _ h := h.joinSwitchComplete
  left _ h := h.leaveSwitchComplete
  quiesce q _ h := h.quiesceHead q
  resume _ h := h.resumeHead
  credit amount s h := h.storeCommand (creditRefusal amount s) _
  drain sequence s h := h.storeCommand (drainRefusal sequence s) _
  restart restarted _ := restarted.modesHeld

end Sys2Proof.Machine
end

section
/-! The queues of the outgoing link: no notice waits held between commands, nothing waits outside the ring, and the transmitter rests
only on empty queues (R6 to R13). -/

set_option Elab.async false

namespace Sys2Proof.Machine

/-! ## The two strengths of the invariant -/

/-- The queues of the outgoing link before the arbiter has chosen. -/
structure LoopPort.Ready (l : LoopPort) : Prop where
  ring : l.AttachSound
  outside : l.attach = .bypass ∨ l.attach = .joining ∨ l.switching = some .leave →
    l.forward = [] ∧ l.own = [] ∧ l.transmitter = .idle
  forwarding : l.transmitter = .sendingForward → l.forward ≠ []
  owning : l.transmitter = .sendingOwn → l.own ≠ []

/-- The queues of the outgoing link between commands. -/
structure LoopPort.Serving (l : LoopPort) : Prop extends LoopPort.Ready l where
  free : ∀ e ∈ l.forward, e.held = false
  rests : l.relay = .through ∧ l.switching = none ∧ l.transmitter = .idle → l.forward = [] ∧ l.own = []

/-- The invariant of ModesKept on the Loop Port. -/
theorem serving_iff (l : LoopPort) : l.Serving ↔ l.AttachSound ∧ l.QueuesSound :=
  ⟨fun h => ⟨h.ring, h.free, h.outside, h.forwarding, h.owning, h.rests⟩,
    fun ⟨ring, free, outside, forwarding, owning, rests⟩ => ⟨⟨ring, outside, forwarding, owning⟩, free, rests⟩⟩

/-- In ATTACHED, and in LEAVING before the switch, the controller stands in the ring with its relay settled. -/
theorem LoopPort.AttachSound.settled {l : LoopPort} (h : l.AttachSound) (inRing : l.attach = .attached ∨ l.attach = .leaving)
    (still : l.switching = none) : l.relay = .through ∧ ¬(l.attach = .bypass ∨ l.attach = .joining ∨ l.switching = some .leave) := by
  unfold LoopPort.AttachSound at h
  rcases inRing with attach | attach
  · rw [attach] at h ⊢
    exact ⟨h.1, by simp [still]⟩
  · rw [attach] at h ⊢
    simp only [still] at h
    exact ⟨by simpa using h, by simp [still]⟩

/-- An attached controller's relay is not switching. -/
theorem LoopPort.AttachSound.still {l : LoopPort} (h : l.AttachSound) (attached : l.attach = .attached) : l.switching = none := by
  unfold LoopPort.AttachSound at h
  rw [attached] at h
  exact h.2

/-- Two Loop Ports with the same queues, standing to the ring alike. -/
structure SameQueues (l k : LoopPort) : Prop where
  ring : l.standsAs k := by simp [LoopPort.standsAs]
  forward : k.forward = l.forward := by simp
  own : k.own = l.own := by simp
  transmitter : k.transmitter = l.transmitter := by simp

/-- The weak invariant is one of the queues. -/
theorem SameQueues.ready {l k : LoopPort} (h : SameQueues l k) (before : l.Ready) : k.Ready := by
  obtain ⟨attach, -, switching⟩ := h.ring
  refine ⟨h.ring.sound before.ring, ?_, ?_, ?_⟩
  · rw [attach, switching, h.forward, h.own, h.transmitter]
    exact before.outside
  · rw [h.forward, h.transmitter]
    exact before.forwarding
  · rw [h.own, h.transmitter]
    exact before.owning

/-- The strong invariant is one of the queues. -/
theorem SameQueues.serving {l k : LoopPort} (h : SameQueues l k) (before : l.Serving) : k.Serving := by
  obtain ⟨-, relay, switching⟩ := h.ring
  refine ⟨h.ready before.toReady, ?_, ?_⟩
  · rw [h.forward]
    exact before.free
  · rw [relay, switching, h.forward, h.own, h.transmitter]
    exact before.rests

/-- The same Loop Port has the same queues. -/
theorem SameQueues.of_eq {l k : LoopPort} (h : k = l) : SameQueues l k := by
  subst h
  exact {}

/-! ## The arbiter and the own frames (R9, R10) -/

/-- The arbiter's choice is from a queue that is not empty. -/
theorem nextTransmitter_sends (forward : List ForwardEntry) (own : List Frame) :
    (nextTransmitter forward own = .sendingForward → forward ≠ []) ∧ (nextTransmitter forward own = .sendingOwn → own ≠ []) := by
  cases forward with
  | nil =>
    cases own with
    | nil => simp [nextTransmitter]
    | cons => simp [nextTransmitter]
  | cons e rest =>
    refine ⟨fun _ => by simp, fun sends => ?_⟩
    simp only [nextTransmitter] at sends
    split at sends
    · cases sends
    · cases sends

/-- Where no notice is held it rests on empty queues alone. -/
theorem nextTransmitter_idle {forward : List ForwardEntry} {own : List Frame} (free : ∀ e ∈ forward, e.held = false)
    (idle : nextTransmitter forward own = .idle) : forward = [] ∧ own = [] := by
  cases forward with
  | nil =>
    cases own with
    | nil => exact ⟨rfl, rfl⟩
    | cons => simp [nextTransmitter] at idle
  | cons e rest => simp [nextTransmitter, free e List.mem_cons_self] at idle

/-- The arbiter keeps the weak invariant. -/
theorem arbitrate_ready {s : State} (h : s.loop.Ready) : (arbitrate s).loop.Ready := by
  have ring : s.loop.standsAs (arbitrate s).loop := by simp [LoopPort.standsAs]
  rw [arbitrate_loop] at ring ⊢
  split
  next turn =>
    obtain ⟨forwarding, owning⟩ := nextTransmitter_sends s.loop.forward s.loop.own
    refine ⟨ring.sound h.ring, fun out => ?_, forwarding, owning⟩
    obtain ⟨forward, own, -⟩ := h.outside out
    exact ⟨forward, own, by simp [forward, own, nextTransmitter]⟩
  next => exact h

/-- The arbiter makes the weak invariant the strong one. -/
theorem arbitrate_serving {s : State} (h : s.loop.Ready) (free : ∀ e ∈ s.loop.forward, e.held = false) :
    (arbitrate s).loop.Serving := by
  refine ⟨arbitrate_ready h, by simpa using free, ?_⟩
  rw [arbitrate_loop]
  dsimp only
  rintro ⟨relay, still, idle⟩
  split at idle
  next => exact nextTransmitter_idle free idle
  next other => exact absurd ⟨relay, still, idle⟩ other

/-- A frame joins the own-frame queue of an attached controller. -/
theorem own_ready {l : LoopPort} (h : l.Ready) (attached : l.attach = .attached) (f : Frame) :
    ({ l with own := l.own ++ [f] } : LoopPort).Ready := by
  obtain ⟨-, inside⟩ := h.ring.settled (.inl attached) (h.ring.still attached)
  exact ⟨h.ring, fun out => absurd out inside, h.forwarding, fun _ => by simp⟩

/-- A frame given keeps the weak invariant (R9). -/
theorem giveFrame_ready {s : State} (kind : FrameKind) (body : List Byte) (h : s.loop.Ready) : (giveFrame kind body s).loop.Ready := by
  unfold giveFrame
  split
  next attached =>
    split
    · exact arbitrate_ready (own_ready h attached _)
    · exact h
  next => exact h

/-- A frame given keeps the strong invariant (R9). -/
theorem giveFrame_serving {s : State} (kind : FrameKind) (body : List Byte) (h : s.loop.Serving) :
    (giveFrame kind body s).loop.Serving := by
  unfold giveFrame
  split
  next attached =>
    split
    · exact arbitrate_serving (own_ready h.toReady attached _) h.free
    · exact h
  next => exact h

/-! ## Takes and retirements -/

/-- A take gives a FEED HOLD at most (R42). -/
theorem take_queues {s : State} (r : PieceRecord) : (s.loop.Ready → (take r s).loop.Ready) ∧ (s.loop.Serving → (take r s).loop.Serving) := by
  unfold take feedHoldRule
  split
  · exact ⟨fun h => giveFrame_ready _ _ h, fun h => giveFrame_serving _ _ h⟩
  · exact ⟨fun h => h, fun h => h⟩

/-- A notice decided gives a FEED HOLD at most (R33 to R42). -/
theorem decideNotice_queues (n : Notice) (s : State) :
    (s.loop.Ready → (decideNotice n s).1.loop.Ready) ∧ (s.loop.Serving → (decideNotice n s).1.loop.Serving) := by
  have same : ∀ {u : State}, u.loop = s.loop → (s.loop.Ready → u.loop.Ready) ∧ (s.loop.Serving → u.loop.Serving) := fun {u} e => by
    rw [e]
    exact ⟨id, id⟩
  have asked : ∀ {u : State} {b : Option Binding}, askBank n.piece s = (u, b) → u.loop = s.loop := fun {u b} e => by
    have loop := askBank_keepsLoop n.piece s
    rw [e] at loop
    exact loop
  have taken : ∀ {u : State} {b : Option Binding} (r : PieceRecord), askBank n.piece s = (u, b) →
      (s.loop.Ready → (take r u).loop.Ready) ∧ (s.loop.Serving → (take r u).loop.Serving) := fun {u b} r e => by
    obtain ⟨ready, serving⟩ := take_queues (s := u) r
    rw [asked e] at ready serving
    exact ⟨ready, serving⟩
  unfold decideNotice
  split
  · exact same rfl
  · split
    · unfold decideOriginal
      split
      · split
        next e => exact taken _ e
        next u e => exact same (u := enterPassing n u) (show u.loop = s.loop from asked e)
      · exact same rfl
    · unfold decideReleased
      split
      · exact same rfl
      · split
        · split
          next e => exact taken _ e
          next e => exact same (asked e)
        · exact same rfl

namespace LoopPort.Serving

variable {s : State}

/-- The same Loop Port. -/
theorem of_eq {t : State} (h : s.loop.Serving) (same : t.loop = s.loop) : t.loop.Serving :=
  same ▸ h

/-- The frames of a retirement (R43, R77). -/
theorem giveAtRetirement (h : s.loop.Serving) (kind : FrameKind) (body : List Byte) : (giveAtRetirement kind body s).loop.Serving := by
  unfold Machine.giveAtRetirement
  split
  · dsimp only
    split
    · exact giveFrame_serving _ _ (giveFrame_serving _ _ h)
    · exact giveFrame_serving _ _ (giveFrame_serving _ _ h)
  · exact giveFrame_serving _ _ h

/-- A retirement (R77). -/
theorem retire (h : s.loop.Serving) (r : PieceRecord) (kind : FrameKind) (body : List Byte) : (retire r kind body s).loop.Serving := by
  have given := giveAtRetirement (s := removeRecord r s) h kind body
  exact of_eq given (by simp [Machine.retire])

/-- A piece missed. -/
theorem missPiece (h : s.loop.Serving) (r : PieceRecord) (cause : FrankCause) (serial : Nat) :
    (missPiece r cause serial s).loop.Serving :=
  retire (s := raise .pieceMissed s) h _ _ _

/-- A slot write asked for (R74, R76). -/
theorem requestSlotWrite (h : s.loop.Serving) (r : PieceRecord) (w : StoreWrite) : (requestSlotWrite r w s).loop.Serving := by
  unfold Machine.requestSlotWrite
  split
  · exact h.missPiece _ _ _
  · exact h

/-- The commit checkpoint of a record (R69 to R71). -/
theorem commitOf (h : s.loop.Serving) (r : PieceRecord) : (commitOf r s).loop.Serving := by
  unfold Machine.commitOf
  split
  · unfold commitRated
    split
    · exact h
    · exact missPiece (h.of_eq (by simp)) _ _ _
  · exact h.missPiece _ _ _
  · exact h.missPiece _ _ _
  · exact h.missPiece _ _ _
  all_goals exact h

/-- The result deadline of a record (R154). -/
theorem deadlineOf (h : s.loop.Serving) (r : PieceRecord) : (deadlineOf r s).loop.Serving := by
  unfold Machine.deadlineOf
  split
  · exact requestSlotWrite (h.of_eq (by simp)) _ _
  all_goals exact h

/-- An imprint settled (R74). -/
theorem settle (h : s.loop.Serving) (e : PathEntry) (w : StoreWrite) : (settle e w s).loop.Serving := by
  unfold Machine.settle
  split
  · exact h
  · split
    · exact requestSlotWrite (h.of_eq (by simp)) _ _
    · exact h

/-- An IMPRINT DONE (R150, R151, R153). -/
theorem resultDone (h : s.loop.Serving) (serial : Nat) : (resultDone serial s).loop.Serving := by
  unfold Machine.resultDone
  split
  · exact h
  · split
    · exact h.settle _ _
    · exact settle (h.of_eq (by simp)) _ _

/-- An IMPRINT FAILED (R152, R153). -/
theorem resultFailed (h : s.loop.Serving) (serial : Nat) : (resultFailed serial s).loop.Serving := by
  unfold Machine.resultFailed
  split
  · exact h
  · exact h.settle _ _

/-- A completed message (R148). -/
theorem completeMessage (h : s.loop.Serving) (octets : List Byte) : (completeMessage octets s).loop.Serving := by
  unfold Machine.completeMessage
  split
  · unfold takeResult
    split
    · exact h.resultDone _
    · exact h.resultFailed _
  · exact h

/-- What IMPRINT_MESSAGE_DISCARDED brings (R148). -/
theorem engineInput (h : s.loop.Serving) (input : EngineInput) : (engineInput input s).loop.Serving := by
  unfold Machine.engineInput
  split
  · exact h
  · exact completeMessage (s := endMessage s) h _
  next sym =>
    unfold engineSymbol
    dsimp only
    split
    · exact h
    · exact h
    · exact completeMessage (s := { s with imprint := { s.imprint with
        receiver := (receiveStep 29 s.imprint.receiver sym).1 } }) h _

/-- A result delivered (R65 to R67). -/
theorem deliverResult (h : s.loop.Serving) : (deliverResult s).loop.Serving := by
  have faulty : ∀ {u : State} (r : PieceRecord) (fault : RatingFault) (serviceClass : Nat), u.loop = s.loop →
      (applyFault r fault serviceClass u).loop.Serving := fun {u} r fault serviceClass e =>
    retire (s := raise .rateFault { u with tracker := { u.tracker with
      lastFault := some { piece := r.piece, fault := fault, serviceClass := serviceClass } } }) (h.of_eq e) _ _ _
  unfold Machine.deliverResult
  split
  · exact h
  · dsimp only
    split
    · exact h
    · split
      · unfold applyResult
        split
        · exact faulty _ _ _ rfl
        · split
          · exact faulty _ _ _ rfl
          · exact h.of_eq (by simp [pledge])
      · exact h

/-- A COMMIT completed (R72, R127). -/
theorem commitComplete (h : s.loop.Serving) (postage : Nat) (piece : PieceNo) (job dateCode : Nat) (rest : List StoreWrite) :
    (commitComplete postage piece job dateCode rest s).loop.Serving := by
  unfold Machine.commitComplete
  dsimp only
  split
  · exact h.of_eq (by simp)
  · split
    · unfold commitLate
      dsimp only
      split
      · exact requestSlotWrite (h.of_eq (by simp)) _ _
      · have asked : ∀ (w : StoreWrite) (q : PieceRecord) (u : State), u.loop = s.loop →
            (placeNotice (Machine.requestSlotWrite q w u)).loop.Serving := fun w q u e => of_eq (requestSlotWrite (s := u) (h.of_eq e) q w) (by simp)
        exact asked _ _ _ rfl
    · exact h.of_eq (by simp [commitOnTime, requestImprint])

/-- A CLOSE completed (R75, R128). -/
theorem closeComplete (h : s.loop.Serving) (serial : Nat) (rest : List StoreWrite) : (closeComplete serial rest s).loop.Serving := by
  unfold Machine.closeComplete
  dsimp only
  split
  · exact h.of_eq (by simp)
  next r _ =>
    have retired := retire (s := { completeWrite (.close serial) rest s with verify := { s.verify with
      recent := joinFranked (frankedEntry r serial) s.verify.recent } }) h r .frankReport (frankBody r.piece .franked r.postage serial)
    exact of_eq retired (by simp [finishFranked, retireReported])

/-- A SPOIL from a slot completed (R75, R129). -/
theorem spoilSlotComplete (h : s.loop.Serving) (serial : Nat) (reason : SpoilReason) (rest : List StoreWrite) :
    (spoilSlotComplete serial reason rest s).loop.Serving := by
  have noticed : ∀ u : State, u.loop.Serving → (placeNotice u).loop.Serving := fun u served => of_eq served (by simp)
  have judged : (judgeSpoils s.store.spoils.length (completeWrite (.spoilSlot serial reason) rest s)).loop.Serving :=
    h.of_eq (by simp)
  refine noticed _ ?_
  split
  · unfold continueConversion
    split
    · exact judged
    · exact judged
  · unfold finishSpoiled
    split
    · exact judged
    · exact judged.retire _ _ _

/-- A failed write (R134). -/
theorem failWrite (h : s.loop.Serving) (w : StoreWrite) : (failWrite s w).loop.Serving := by
  have slot : ∀ serial, (failSlotWrite serial s).loop.Serving := fun serial => by
    unfold failSlotWrite
    split
    · exact h
    · exact h.missPiece _ _ _
  cases w with
  | commit postage piece =>
    have judged : (judgeFunds (lowerPledge postage s)).loop.Serving := h.of_eq (by simp)
    simp only [Machine.failWrite, failCommit]
    split
    · exact judged
    · exact judged.missPiece _ _ _
  | close => exact slot _
  | spoilSlot =>
    simp only [Machine.failWrite]
    split
    · exact h
    · exact slot _
  | spoilUnmatched piece => exact h.of_eq (by simp [Machine.failWrite])
  | spoilVerdict | credit | drain => exact h

/-- A failed store write (R134). -/
theorem failStore (h : s.loop.Serving) : (failStore s).loop.Serving := by
  have fails : ∀ (writes : List StoreWrite) (u : State), u.loop.Serving → (writes.foldl Machine.failWrite u).loop.Serving :=
    fun writes => by
      induction writes with
      | nil => exact fun u served => served
      | cons w rest ih => exact fun u served => ih _ (served.failWrite w)
  unfold Machine.failStore
  split
  · exact h
  · exact fails _ _ h

/-! ## Loop-in and loop-out -/

/-- A good frame aside (R8). -/
theorem disposeAside (h : s.loop.Serving) (f : Frame) : (disposeAside f s).loop.Serving := by
  unfold Machine.disposeAside
  split_ifs
  · exact h
  · exact h
  · split
    · exact h
    · exact SameQueues.serving (l := s.loop) {} h
    · exact (decideNotice_queues _ s).2 h
    · exact h.of_eq (hand_loop _ s)

/-- A frame that joins the forward queue in the ring. -/
theorem forward_ready (h : s.loop.Serving) (inside : ¬(s.loop.attach = .bypass ∨ s.loop.attach = .joining ∨ s.loop.switching = some .leave))
    (f : Frame) (held : Bool) : (enqueueForward f held s).loop.Ready :=
  ⟨h.ring, fun out => absurd out inside, fun _ => by simp [enqueueForward], h.owning⟩

/-- A good frame in the ring joins the forward queue, is answered if it is a notice, and the arbiter chooses (R5 to R7, R10). -/
theorem disposeInRing (h : s.loop.Serving) (f : Frame) (inRing : s.loop.attach = .attached ∨ s.loop.attach = .leaving)
    (still : s.loop.switching = none) : (disposeInRing f s).loop.Serving := by
  obtain ⟨-, inside⟩ := h.ring.settled inRing still
  have plain : ∀ g, ∀ e ∈ (enqueueForward g false s).loop.forward, e.held = false := fun g e mem => by
    rcases List.mem_append.mp mem with old | new
    · exact h.free e old
    · simp [List.mem_singleton.mp new]
  have joined : ∀ (g : Frame) (u : State), SameQueues (enqueueForward g false s).loop u.loop → (arbitrate u).loop.Serving :=
    fun g u same => arbitrate_serving (same.ready (h.forward_ready inside g false)) (by rw [same.forward]; exact plain g)
  unfold Machine.disposeInRing
  split_ifs
  · exact h
  · exact h
  · unfold forwardAndHand
    split
    · exact joined { f with hop := f.hop - 1 } _ {}
    · exact joined { f with hop := f.hop - 1 } _ {}
    next n _ =>
      have waits := (decideNotice_queues n _).1 (h.forward_ready inside { f with hop := f.hop - 1 } true)
      refine arbitrate_serving ⟨waits.ring, fun out => ?_, fun sends => ?_, waits.owning⟩ fun e mem => ?_
      · obtain ⟨forward, own, idle⟩ := waits.outside out
        exact ⟨by simpa [decideHeld, releaseHeld] using forward, own, idle⟩
      · have there := waits.forwarding sends
        simpa [decideHeld, releaseHeld] using there
      · obtain ⟨q, -, rfl⟩ := List.mem_map.mp mem
        split
        · rfl
        next free => simpa using free
    · exact joined _ _ (.of_eq (hand_loop _ _))
  · exact h

/-- A good frame by the attach state (R5, R8). -/
theorem dispose (h : s.loop.Serving) (f : Frame) (still : s.loop.switching = none) : (dispose f s).loop.Serving := by
  unfold Machine.dispose
  split
  next inRing => exact h.disposeInRing f (by simpa [State.inRing] using inRing) still
  next => exact h.disposeAside f

/-- The end of reception (R2). -/
theorem endReception (h : s.loop.Serving) (octets : List Byte) : (endReception octets s).loop.Serving := by
  obtain ⟨receiver, idleRun, lost, badFrames, ended⟩ := endReception_eq octets s
  rw [ended]
  exact SameQueues.serving (l := s.loop) {} h

/-- The octets of a completed frame (R3). -/
theorem completeOctets (h : s.loop.Serving) (octets : List Byte) (still : s.loop.switching = none) :
    (completeOctets octets s).loop.Serving := by
  unfold Machine.completeOctets
  split
  · exact SameQueues.serving (l := s.loop) {} h
  · exact h.dispose _ still

/-- A controller that hears is not switching (R12). -/
theorem still_of_hearing (deaf : ¬s.deaf = true) : s.loop.switching = none := by
  simpa [State.deaf] using deaf

/-- The end of reception leaves the switching period. -/
theorem endReception_switching (octets : List Byte) (s : State) : (Machine.endReception octets s).loop.switching = s.loop.switching := by
  obtain ⟨receiver, idleRun, lost, badFrames, ended⟩ := endReception_eq octets s
  rw [ended]

/-- A whole frame (R2, R3). -/
theorem receiveFrame (h : s.loop.Serving) (f : Frame) : (receiveFrame f s).loop.Serving := by
  unfold Machine.receiveFrame
  split_ifs with deaf bad
  · exact h
  · exact SameQueues.serving (l := (Machine.endReception f.octets s).loop) {} (h.endReception _)
  · exact (h.endReception _).dispose _ ((endReception_switching _ s).trans (still_of_hearing deaf))

/-- The octets of BAD_FRAME (R3). -/
theorem receiveOctets (h : s.loop.Serving) (octets : List Byte) : (receiveOctets octets s).loop.Serving := by
  unfold Machine.receiveOctets
  split
  · exact h
  next deaf => exact (h.endReception _).completeOctets _ ((endReception_switching _ s).trans (still_of_hearing deaf))

/-- A symbol (R2). -/
theorem receiveSymbol (h : s.loop.Serving) (sym : Symbol) : (receiveSymbol sym s).loop.Serving := by
  have seen : ∀ receiver, SameQueues s.loop { (seeSymbol sym s).loop with receiver := receiver } := fun _ => {}
  unfold Machine.receiveSymbol
  split
  · exact h
  next deaf =>
    dsimp only
    split
    · exact (seen _).serving h
    · exact SameQueues.serving (l := s.loop) {} h
    · exact completeOctets (s := { seeSymbol sym s with loop := { (seeSymbol sym s).loop with
        receiver := (receiveStep 46 s.loop.receiver sym).1 } }) ((seen _).serving h) _ (still_of_hearing deaf)

/-- A sending transmitter is in the ring, so nothing outside it waits. -/
theorem inside_of_sending (h : s.loop.Serving) (sending : s.loop.transmitter ≠ .idle) :
    ¬(s.loop.attach = .bypass ∨ s.loop.attach = .joining ∨ s.loop.switching = some .leave) :=
  fun out => sending (h.outside out).2.2

/-- A forwarded frame is sent (R6, R10). -/
theorem forwardSent (h : s.loop.Serving) : (forwardSent s).loop.Serving := by
  unfold Machine.forwardSent
  split
  next e rest sending queue =>
    have inside := h.inside_of_sending (by simp [sending])
    exact arbitrate_serving ⟨h.ring, fun out => absurd out inside, by simp, by simp⟩
      fun x mem => h.free x (queue ▸ List.mem_cons_of_mem _ mem)
  all_goals exact h

/-- An own frame is sent (R9, R10). -/
theorem ownSent (h : s.loop.Serving) : (ownSent s).loop.Serving := by
  unfold Machine.ownSent
  split
  next f rest sending queue =>
    have inside := h.inside_of_sending (by simp [sending])
    exact arbitrate_serving ⟨h.ring, fun out => absurd out inside, by simp, by simp⟩ h.free
  all_goals exact h

/-! ## The attach changes -/

/-- A change of the attach state or the relay by its test (R11 to R13, R15). -/
theorem relay (h : s.loop.Serving) {l : LoopPort} (move : RelayMove s l) (ring : l.AttachSound) : l.Serving := by
  cases move with
  | join standby bypass => exact ⟨⟨ring, fun _ => h.outside (.inl bypass), h.forwarding, h.owning⟩, h.free, h.rests⟩
  | joinStart joining still =>
    exact ⟨⟨ring, fun _ => h.outside (.inr (.inl joining)), h.forwarding, h.owning⟩, h.free, by simp⟩
  | leave quiet attached =>
    obtain ⟨-, inside⟩ := h.ring.settled (.inl attached) (h.ring.still attached)
    exact ⟨⟨ring, fun out => absurd (by simpa using out) (not_or.mp (not_or.mp inside).2).2, h.forwarding, h.owning⟩, h.free, h.rests⟩
  | leaveStart leaving still forward own idle =>
    exact ⟨⟨ring, fun _ => ⟨forward, own, idle⟩, h.forwarding, h.owning⟩, h.free, by simp⟩
  | settled reset =>
    have out : s.loop.attach = .bypass ∨ s.loop.attach = .joining := by
      have before := h.ring
      unfold LoopPort.AttachSound at before
      split at before
      next attach => exact .inl attach
      next attach => exact .inr attach
      next => simp [reset] at before
      next => simp [reset] at before
    have empty := h.outside (out.imp_right .inl)
    exact ⟨⟨ring, fun _ => empty, h.forwarding, h.owning⟩, h.free, fun _ => ⟨empty.1, empty.2.1⟩⟩

/-- The join switching period is over: the queues are empty (R11). -/
theorem joinSwitchComplete (h : s.loop.Serving) (modes : s.ModesHeld) (ring : (joinSwitchComplete s).loop.AttachSound) :
    (joinSwitchComplete s).loop.Serving := by
  unfold Machine.joinSwitchComplete at ring ⊢
  split
  next switching =>
    obtain ⟨forward, own, idle⟩ := h.outside (.inr (.inl (modes.attach_of_switching.1 switching)))
    have loop : (raise .attachChanged (beginRunning { s with
        loop := { s.loop with switching := none, attach := .attached, receiver := .outside }
        out := { s.out with loopOut := some .cut } })).loop =
        { s.loop with switching := none, attach := .attached, receiver := .outside } := by
      unfold beginRunning
      split
      · rfl
      · rfl
    rw [if_pos switching, loop] at ring
    rw [loop]
    exact ⟨⟨ring, fun _ => ⟨forward, own, idle⟩, h.forwarding, h.owning⟩, h.free, fun _ => ⟨forward, own⟩⟩
  next => exact h

/-- The leave switching period is over: the queues are empty (R13). -/
theorem leaveSwitchComplete (h : s.loop.Serving) (ring : (leaveSwitchComplete s).loop.AttachSound) :
    (leaveSwitchComplete s).loop.Serving := by
  unfold Machine.leaveSwitchComplete at ring ⊢
  split
  next switching =>
    obtain ⟨forward, own, idle⟩ := h.outside (.inr (.inr switching))
    rw [if_pos switching] at ring
    exact ⟨⟨ring, fun _ => ⟨forward, own, idle⟩, h.forwarding, h.owning⟩, h.free, fun _ => ⟨forward, own⟩⟩
  next => exact h

end LoopPort.Serving

end Sys2Proof.Machine
end

section
/-! ModesKept: the queues of the outgoing link over every command, and the assembly. -/

set_option Elab.async false

namespace Sys2Proof.Machine

/-- The queues are empty after a restart (R15). -/
theorem Restarted.serving {s t : State} (h : Restarted s t) : t.loop.Serving := by
  obtain ⟨switching, loop, reset⟩ := h.loop
  have ring := h.modesHeld.ring
  rw [loop] at ring ⊢
  exact ⟨⟨ring, fun _ => ⟨rfl, rfl, rfl⟩, by simp [LoopPort.initial], by simp [LoopPort.initial]⟩, by simp [LoopPort.initial],
    fun _ => ⟨rfl, rfl⟩⟩

/-- A checkpoint event (R53). -/
theorem LoopPort.Serving.atCheckpoint {s : State} (h : s.loop.Serving) (p : PieceNo) (which : Checkpoints → Position)
    (act : PieceRecord → State → State) (acts : ∀ r, (act r s).loop.Serving) : (atCheckpoint p which act s).loop.Serving := by
  unfold Machine.atCheckpoint
  split
  · exact h
  · split
    · exact acts _
    · exact h

/-- The service port commands that leave the Loop Port as it is. -/
theorem service_loop (s : State) :
    (∀ v further d, (answer v further d s).loop = s.loop) ∧ (∀ r, (configure r s).loop = s.loop) ∧
      (∀ slot index part, (loadBank slot index part s).loop = s.loop) ∧ (∀ slot, (commitBank slot s).loop = s.loop) ∧
      (∀ q, (quiesceHead q s).loop = s.loop) ∧ (resumeHead s).loop = s.loop := by
  refine ⟨fun _ _ _ => rfl, fun r => ?_, fun slot index part => ?_, fun slot => ?_, fun q => ?_, ?_⟩
  · unfold configure
    repeat' split
    all_goals simp [answerSetup, answer, acceptConfiguration]
  · unfold loadBank loadInto
    repeat' split
    all_goals rfl
  · unfold commitBank acceptCommit
    repeat' split
    all_goals rfl
  · unfold quiesceHead quiesceRunning
    repeat' split
    all_goals simp [answerOperation, answer]
  · unfold resumeHead
    split
    all_goals rfl

/-- The read and store commands leave the queues. -/
theorem reads_queues (s : State) : (readFunds s).loop = s.loop ∧ (readFundsNext s).loop = s.loop ∧
    (∀ index, (readPiece index s).loop = s.loop) ∧ (readSpoilOldest s).loop = s.loop ∧
    (∀ amount, (creditHead amount s).loop = s.loop) ∧ (∀ sequence, (drainHead sequence s).loop = s.loop) := by
  refine ⟨?_, ?_, fun index => ?_, ?_, fun amount => ?_, fun sequence => ?_⟩
  · unfold readFunds
    split
    all_goals rfl
  · unfold readFundsNext
    repeat' split
    all_goals rfl
  · unfold readPiece
    split
    all_goals rfl
  · unfold readSpoilOldest
    split
    all_goals rfl
  · unfold creditHead
    split
    all_goals rfl
  · unfold drainHead
    split
    all_goals rfl

/-- Every command keeps the queues of the outgoing link. -/
theorem effect_serving (c : Instr) (s : State) (modes : s.ModesHeld) (h : s.loop.Serving) : (effect c s).loop.Serving := by
  have ring := (tableOps_modesHeld.effect c s modes).ring
  obtain ⟨answered, configured, loaded, committed, quiesced, resumed⟩ := service_loop s
  obtain ⟨funds, fundsNext, piece, oldest, credited, drained⟩ := reads_queues s
  have noticed : ∀ u : State, u.loop = s.loop → (placeNotice u).loop.Serving := fun u same => h.of_eq (by simpa using same)
  cases c with
  | powerUp => exact (effect_restarted (c := .powerUp) rfl s).serving
  | resetPin => exact (effect_restarted (c := .resetPin) rfl s).serving
  | headReset => exact (effect_restarted (c := .headReset) rfl s).serving
  | powerLoss => exact (effect_restarted (c := .powerLoss) rfl s).serving
  | unknownKindFrame | pieceNotice | releasedNotice | measureReport | addressReport | jobOpen | jobClose | rateSwitch
  | feedHold | feedResume | frankReport | verifyReport => exact h.receiveFrame _
  | badFrame => exact h.receiveOctets _
  | loopReturn | idleReceived => exact h.receiveSymbol _
  | frameAbandoned =>
    simp only [effect, abandonFrame]
    split
    · exact h
    · exact SameQueues.serving (l := s.loop) {} h
  | loopLost =>
    simp only [effect, loseLoop]
    split
    · exact h
    · exact SameQueues.serving (l := s.loop) {} h
  | resetRelaySettled =>
    simp only [effect, relaySettled] at ring ⊢
    split
    next reset =>
      rw [if_pos reset] at ring
      exact h.relay (.settled reset) ring
    next => exact h
  | joinSwitchStart =>
    simp only [effect, joinSwitchStart] at ring ⊢
    split
    next may =>
      rw [if_pos may] at ring
      obtain ⟨attach, still, -⟩ := may
      exact h.relay (.joinStart attach still) ring
    next => exact h
  | leaveSwitchStart =>
    simp only [effect, leaveSwitchStart] at ring ⊢
    split
    next may =>
      rw [if_pos may] at ring
      obtain ⟨attach, still, forward, own, idle, -⟩ := of_decide_eq_true may
      exact h.relay (.leaveStart attach still forward own idle) ring
    next => exact h
  | join =>
    simp only [effect, joinRing] at ring ⊢
    split
    next may =>
      rw [if_pos may] at ring
      exact h.relay (.join may.1 may.2) ring
    next => exact h
  | leave =>
    simp only [effect, leaveRing] at ring ⊢
    split
    next may =>
      rw [if_pos may] at ring
      exact h.relay (.leave may.1 may.2) ring
    next => exact h
  | joinSwitchComplete => exact h.joinSwitchComplete modes ring
  | leaveSwitchComplete => exact h.leaveSwitchComplete ring
  | encoderPulseForward | encoderPulseReverse => exact h
  | forwardFrameSent => exact h.forwardSent
  | ownFrameSent => exact h.ownSent
  | cutoff =>
    refine h.atCheckpoint _ _ _ fun r => ?_
    unfold cutoffOf
    split
    · exact h
    · exact h
  | commitCheckpoint => exact h.atCheckpoint _ _ _ h.commitOf
  | printCheckpoint =>
    refine h.atCheckpoint _ _ _ fun r => ?_
    unfold printOf
    split
    · split
      · exact h.of_eq (by simp)
      · exact h
    all_goals exact h
  | resultDeadline => exact h.atCheckpoint _ _ _ h.deadlineOf
  | ratingStart =>
    simp only [effect, startRating]
    split
    · exact h
    · split
      · exact h
      · exact h
  | ratingResult => exact h.deliverResult
  | commitWriteComplete =>
    simp only [effect]
    split
    · exact h.commitComplete _ _ _ _ _
    · exact h
  | closeWriteComplete =>
    simp only [effect]
    split
    · exact h.closeComplete _ _
    · exact h
  | spoilSlotWriteComplete =>
    simp only [effect]
    split
    · exact h.spoilSlotComplete _ _ _
    · exact h
  | spoilVerdictWriteComplete | spoilUnmatchedWriteComplete | creditWriteComplete | drainWriteComplete =>
    simp only [effect]
    split
    · exact noticed _ (by simp)
    · exact h
  | storeWriteFailed => exact h.failStore
  | startupReadComplete good =>
    simp only [effect]
    split_ifs
    · exact h
    · exact h
    · exact h
  | imprintDone => exact LoopPort.Serving.resultDone (s := endMessage s) h _
  | imprintFailed => exact LoopPort.Serving.resultFailed (s := endMessage s) h _
  | imprintMessageDiscarded => exact h.engineInput _
  | imprintMessageSent =>
    simp only [effect, messageSent]
    split
    all_goals exact h
  | configure => exact h.of_eq (configured _)
  | loadBankBlock => exact h.of_eq (loaded _ _ _)
  | commitBank => exact h.of_eq (committed _)
  | quiesce => exact h.of_eq (quiesced _)
  | resume => exact h.of_eq resumed
  | readFunds => exact h.of_eq funds
  | readFundsNext => exact h.of_eq fundsNext
  | readPiece => exact h.of_eq (piece _)
  | readSpoilOldest => exact h.of_eq oldest
  | credit => exact h.of_eq (credited _)
  | drainSpoil => exact h.of_eq (drained _)
  | readLineCounts => exact SameQueues.serving (l := s.loop) (k := { s.loop with badFrames := 0 }) {} h
  | readBankState | readEvents | clearEvents | readLastFault | unknownCommand => exact h
  | shortTransfer type =>
    cases type with
    | setup | operation | read | store => exact h

/-- Settles O10: every operation keeps the modes, and every command the queues of the outgoing link. -/
theorem modesKept : Obligations.ModesKept := by
  refine fun _ _ => step_keeps (P := State.TableBounded) (fun _ _ h => h) fun c s h => ?_
  rw [tableBounded_iff] at h ⊢
  obtain ⟨modes, queues⟩ := h
  have after := tableOps_modesHeld.effect c s modes
  have served := effect_serving c s modes ((serving_iff _).mpr ⟨modes.ring, queues⟩)
  exact ⟨after, ((serving_iff _).mp served).2⟩

end Sys2Proof.Machine
end

section
/-! Power, the relay, and the commands that answer at the service port (R11 to R15, R46, R50, R136, R171, R173, R174). -/

set_option Elab.async false

namespace Sys2Proof.Machine

/-- A command with power completes with its effect. -/
theorem exec_on {s : State} (on : s.powered = true) (c : Instr) : exec c s = .next (effect c s) :=
  exec_eq_effect c s (.inl on)

/-- A command with power answers the state its effect is. -/
theorem exec_answers {s t : State} {c : Instr} (on : s.powered = true) (acts : effect c s = t) : exec c s = .next t :=
  (exec_on on c).trans (congrArg _ acts)

/-! ## Loss of power (R136) -/

/-- Settles O30: the fields of `losePower`, one by one; the store by the two cases of the cut. -/
theorem powerLossAndNoPower : Obligations.PowerLossAndNoPower := by
  unfold Obligations.PowerLossAndNoPower
  refine ⟨fun s on => ⟨losePower s, exec_on on .powerLoss, rfl, rfl, rfl, rfl, rfl, rfl, rfl, rfl, rfl, rfl, rfl, ?_, rfl, rfl⟩,
    fun c s off other => exec_unpowered c s off other⟩
  rcases cutStore_cases s with same | ⟨w, rest, queue, applied⟩
  · exact .inl same
  · exact .inr ⟨w, rest, queue, applied⟩

/-! ## The two starts (R15, R174) -/

/-- What the imprint port shows once a broken message has its CUT (R147, R157). -/
theorem endBroken_endSending (s : State) (mark : Sent) (cut : mark = .cut ∨ mark = .broken) :
    (s.imprint.sendQueue ≠ [] ∨ s.out.engineOut = some .broken → endBroken (endSending mark s) = some .cut) ∧
      (s.imprint.sendQueue = [] → s.out.engineOut ≠ some .broken → endBroken (endSending mark s) = s.out.engineOut) := by
  unfold endSending endBroken
  refine ⟨fun sending => ?_, fun quiet whole => by rw [if_pos quiet, if_neg whole]⟩
  by_cases quiet : s.imprint.sendQueue = []
  · rw [if_pos quiet, if_pos (sending.resolve_left fun busy => busy quiet)]
  · rw [if_neg quiet]
    rcases cut with rfl | rfl <;> rfl

/-- A message that ended with CUT is not broken off by the reset that follows it with an empty send queue. -/
theorem engineOut_powerUp (s : State) : ∃ mark, (mark = .cut ∨ mark = .broken) ∧
    (effect .powerUp s).out.engineOut = endBroken (endSending mark s) := by
  by_cases on : s.powered = true
  · refine ⟨.broken, .inr rfl, ?_⟩
    show endBroken (endSending .cut (if s.powered = true then losePower s else s)) = _
    rw [if_pos on]
    rfl
  · refine ⟨.cut, .inl rfl, ?_⟩
    show endBroken (endSending .cut (if s.powered = true then losePower s else s)) = _
    rw [if_neg on]

/-- The store after a power-up: that of one cut. -/
theorem store_powerUp (s : State) : (effect .powerUp s).store = cutStore s := by
  show cutStore (if s.powered = true then losePower s else s) = _
  split <;> rfl

/-- The other outputs after a power-up. -/
theorem outputs_powerUp (s : State) : (effect .powerUp s).out.answer = s.out.answer ∧
    (effect .powerUp s).out.loopOut = s.out.loopOut ∧ (effect .powerUp s).pending = s.pending := by
  show (if s.powered = true then losePower s else s).out.answer = _ ∧
    (if s.powered = true then losePower s else s).out.loopOut = _ ∧ (if s.powered = true then losePower s else s).pending = _
  split <;> exact ⟨rfl, rfl, rfl⟩

/-- The relay switches after a reset that found it through or switching (R15). -/
theorem resetSwitching_eq (l : LoopPort) :
    resetSwitching l = if l.relay = .through ∨ l.switching ≠ none then some .reset else none := by
  unfold resetSwitching
  simp only [Option.isSome_iff_ne_none]

/-- Settles O29: power-up by the facts above, the two resets field by field. -/
theorem resetsAndPowerUp : Obligations.ResetsAndPowerUp := by
  unfold Obligations.ResetsAndPowerUp
  rintro c s (rfl | ⟨on, rfl | rfl⟩)
  · obtain ⟨mark, cut, shown⟩ := engineOut_powerUp s
    obtain ⟨-, loopOut, pending⟩ := outputs_powerUp s
    obtain ⟨sending, quiet⟩ := endBroken_endSending s mark cut
    refine ⟨_, exec_eq_effect .powerUp s (.inr rfl), rfl, rfl, rfl, rfl, rfl, rfl, rfl, rfl, rfl, rfl, rfl,
      (store_powerUp s).symm ▸ cutStore_cases s, fun busy => shown.trans (sending busy), fun idle whole => shown.trans (quiet idle whole),
      nofun, nofun, loopOut, pending⟩
  · obtain ⟨sending, quiet⟩ := endBroken_endSending s .cut (.inl rfl)
    refine ⟨_, exec_on on .resetPin, rfl, rfl, ?_, rfl, rfl, rfl, rfl, rfl, rfl, rfl, rfl, cutStore_cases s, sending, quiet,
      nofun, fun _ => rfl, rfl, rfl⟩
    simp only [effect, resetHead, resetSwitching_eq, ne_eq, reduceCtorEq, not_false_eq_true, true_and]
  · obtain ⟨sending, quiet⟩ := endBroken_endSending s .cut (.inl rfl)
    refine ⟨_, exec_on on .headReset, rfl, rfl, ?_, rfl, rfl, rfl, rfl, rfl, rfl, rfl, rfl, cutStore_cases s, sending, quiet,
      fun _ => rfl, nofun, rfl, rfl⟩
    show { LoopPort.initial with switching := resetSwitching s.loop } = _
    simp only [resetSwitching_eq, ne_eq, reduceCtorEq, not_false_eq_true, true_and]

/-! ## The relay's switching periods (R11 to R13, R15) -/

/-- The head mode after the attach change of JOIN (R11, R169). -/
theorem beginRunning_eq (s : State) : beginRunning s = { s with
    mode := if s.mode = .halted then .halted else .running
    intake := { s.intake with quiesce := if s.mode = .halted then s.intake.quiesce else .none } } := by
  unfold beginRunning
  split
  next halted => rw [← halted]
  next => rfl

/-- While the relay is switching nothing on loop-in is heard (R12). -/
theorem effect_deaf {c : Instr} {s : State} (deaf : s.deaf = true) (line : lineFrameOf c ≠ none ∨ (∃ octets, c = .badFrame octets) ∨
    (∃ why, c = .frameAbandoned why) ∨ (∃ sym, c = .idleReceived sym ∨ c = .loopReturn sym) ∨ c = .loopLost) : effect c s = s := by
  have frame : ∀ f, receiveFrame f s = s := fun f => if_pos deaf
  rcases line with row | ⟨octets, rfl⟩ | ⟨why, rfl⟩ | ⟨sym, rfl | rfl⟩ | rfl
  · cases c with
    | unknownKindFrame | pieceNotice | releasedNotice | measureReport | addressReport | jobOpen | jobClose | rateSwitch | feedHold
    | feedResume | frankReport | verifyReport => exact frame _
    | _ => exact absurd rfl row
  · exact if_pos deaf
  · exact if_pos deaf
  · exact if_pos deaf
  · exact if_pos deaf
  · exact if_pos (.inl deaf)

/-- Settles O31: each start and each end of a switching period by its test. -/
theorem relaySwitching : Obligations.RelaySwitching := by
  unfold Obligations.RelaySwitching
  refine fun s on => ⟨fun joining still run => ?_, fun joins => ?_, fun leaving still forward own idle run => ?_, fun leaves => ?_,
    fun resets => ?_, fun switching c line => ?_⟩
  · exact exec_answers on (if_pos ⟨joining, still, run⟩)
  · exact exec_answers on ((if_pos joins).trans (congrArg _ (beginRunning_eq _)))
  · exact exec_answers on (if_pos (decide_eq_true ⟨leaving, still, forward, own, idle, run⟩))
  · exact exec_answers on (if_pos leaves)
  · exact exec_answers on (if_pos resets)
  · rw [exec_on on, effect_deaf (Option.isSome_iff_ne_none.mpr switching) line]

/-! ## Events read and cleared (R173) -/

/-- Settles O58. An event raised after the read is pending and not last-reported, so the clear leaves it. -/
theorem eventsReadAndCleared : Obligations.EventsReadAndCleared := by
  unfold Obligations.EventsReadAndCleared
  have less : ∀ s : State, s.remaining = s.port.events.filter fun e => decide (e ∉ s.port.lastReported) := fun s => by
    unfold State.remaining dropEvents
    refine List.filter_congr fun e _ => ?_
    simp
  intro s on
  refine ⟨by rw [exec_on on]; rfl, ?_, fun none => ?_, fun e t u read clear => ?_⟩
  · rw [exec_on on, ← less]
    rfl
  · simp [none]
  · rw [exec_on on] at read
    obtain rfl := Host.Outcome.next.inj read
    rw [exec_on (by exact on)] at clear
    obtain rfl := Host.Outcome.next.inj clear
    show e ∈ State.remaining (raise e _)
    rw [less, List.mem_filter]
    refine ⟨mem_addEvent e _, ?_⟩
    simp [dropEvent]

/-! ## JOIN, LEAVE, QUIESCE and RESUME (R11, R13, R46, R50) -/

/-- Whether a job is CLOSED (R46). -/
theorem jobIsClosed_iff (s : State) (n : Nat) : s.jobIsClosed n = true ↔ ∃ j, s.job? n = some j ∧ j.isOpen = false := by
  unfold State.jobIsClosed
  cases s.job? n <;> simp

/-- Whether the free funds are below a level (R139). -/
theorem fundsBelow_iff (s : State) (level : Nat) : s.fundsBelow level = true ↔ s.store.dr < s.funds.pledged + level :=
  decide_eq_true_iff

/-- A condition that is met begins the quiescing, which goes on to QUIET when no piece is held (R46, R49). -/
theorem exec_quiesce_begins {s : State} {q : QuiesceArg} (on : s.powered = true) (running : s.mode = .running)
    (met : quiesceRunning q s = answerOperation .accepted (enterQuiescing s)) :
    (s.tracker.pieces ≠ [] → exec (.quiesce q) s = .next (answerOperation .accepted
      { s with mode := .quiescing, intake := { s.intake with quiesce := .none } })) ∧
    (s.tracker.pieces = [] → exec (.quiesce q) s = .next (answerOperation .accepted (raise .quietReached
      { s with mode := .quiet, intake := { s.intake with quiesce := .none } }))) := by
  have acts : exec (.quiesce q) s = .next (answerOperation .accepted (enterQuiescing s)) := by
    exact exec_answers on ((if_pos running).trans met)
  refine ⟨fun held => acts.trans (congrArg _ (congrArg _ ?_)), fun empty => acts.trans (congrArg _ (congrArg _ ?_))⟩
  · exact if_neg fun quiet => held quiet.2
  · exact if_pos ⟨rfl, empty⟩

/-- QUIESCE in RUNNING answers by its argument (R46). -/
theorem exec_quiesce_running {s t : State} {q : QuiesceArg} (on : s.powered = true) (running : s.mode = .running)
    (acts : quiesceRunning q s = t) : exec (.quiesce q) s = .next t := by
  exact exec_answers on ((if_pos running).trans acts)

/-- QUIESCE AT_JOB_CLOSE with a job number in range (R46). -/
theorem quiesceRunning_atJobClose {n : Nat} (low : 1 ≤ n) (high : n ≤ 255) (s : State) : quiesceRunning (.atJobClose n) s =
    if s.jobIsClosed n then answerOperation .accepted (enterQuiescing s)
    else answerOperation .accepted (holdCondition (.atJobClose n) s) :=
  if_neg (by omega)

/-- Settles O57: each command by its test, QUIESCE by its argument. -/
theorem modeCommands : Obligations.ModeCommands := by
  unfold Obligations.ModeCommands
  intro s on
  refine ⟨fun may => ?_, fun mayNot => ?_, fun may => ?_, fun mayNot => ?_, ⟨fun may => ?_, fun mayNot => ?_⟩, fun other q => ?_,
    fun running => ⟨exec_quiesce_begins on running rfl, fun n low high => ⟨fun j found closed => ?_, fun notClosed => ?_⟩,
      fun low => ?_, fun enough => ?_, fun q bad => ?_⟩⟩
  · exact exec_answers on (if_pos may)
  · exact exec_answers on (if_neg mayNot)
  · exact exec_answers on (if_pos may)
  · exact exec_answers on (if_neg mayNot)
  · exact exec_answers on (if_pos may)
  · exact exec_answers on (if_neg mayNot)
  · exact exec_answers on (if_neg other)
  · exact exec_quiesce_begins on running
      ((quiesceRunning_atJobClose low high s).trans (if_pos ((jobIsClosed_iff s n).mpr ⟨j, found, closed⟩)))
  · refine exec_quiesce_running on running ((quiesceRunning_atJobClose low high s).trans (if_neg fun closed => ?_))
    obtain ⟨j, found, isClosed⟩ := (jobIsClosed_iff s n).mp closed
    exact Bool.false_ne_true (isClosed.symm.trans (notClosed j found))
  · exact exec_quiesce_begins on running (if_pos ((fundsBelow_iff s _).mpr low))
  · exact exec_quiesce_running on running (if_neg fun low => absurd ((fundsBelow_iff s _).mp low) (by omega))
  · rcases bad with rfl | ⟨n, high, rfl⟩ | ⟨code, rfl⟩
    · exact exec_quiesce_running on running rfl
    · exact exec_quiesce_running on running (if_pos (.inr high))
    · exact exec_quiesce_running on running rfl

end Sys2Proof.Machine
end

section
/-! The reads, CREDIT and DRAIN_SPOIL, and CONFIGURE (R4, R33, R68, R78, R96, R131, R133, R165, R167, R170, R171). -/

set_option Elab.async false

namespace Sys2Proof.Machine

/-! ## The reads -/

/-- The default summary of the piece table (R78). -/
theorem anyDefaulted_eq (pieces : List PieceRecord) : pieces.any (fun r => r.flags.defaulted) = decide (∃ r ∈ pieces,
    r.flags.weightDefaulted = true ∨ r.flags.dimsDefaulted = true ∨ r.flags.addressDefaulted = true) := by
  rw [Bool.eq_iff_iff, List.any_eq_true, decide_eq_true_iff]
  simp only [ConditionFlags.defaulted, Bool.or_eq_true, or_assoc]

/-- READ_FUNDS_NEXT at a figure (R171). -/
theorem readFundsNext_of_figure {s : State} {l : Latch} {figure octets : Nat} (latched : s.port.latch = some l)
    (figures : l.figures[l.index]? = some figure) (sizes : [4, 6, 6, 4, 4, 2, 1, 4, 6][l.index]? = some octets) :
    readFundsNext s = answerRead .accepted (.figure figure octets)
      { s with port := { s.port with latch := some { l with index := l.index + 1 } } } := by
  have inside : l.index < 9 := (List.getElem?_eq_some_iff.mp sizes).1
  have sizes : figureOctets[l.index]? = some octets := sizes
  unfold readFundsNext
  rw [latched]
  show (if l.index < 9 then _ else _) = _
  rw [if_pos inside, List.getD_eq_getElem?_getD, List.getD_eq_getElem?_getD, figures, sizes]
  rfl

/-- READ_FUNDS_NEXT after the ninth figure (R171). -/
theorem readFundsNext_past {s : State} {l : Latch} (latched : s.port.latch = some l) (past : 9 ≤ l.index) :
    readFundsNext s = answerRead (.refused .noSnapshot) .nothing s := by
  unfold readFundsNext
  rw [latched]
  exact if_neg (by omega)

/-- What READ_BANK_STATE says of a slot, by its state (R96). -/
theorem bankView (b : BankSlot) : b.view.state = b.state ∧ b.view.bound = b.bound ∧ (b.state = .empty → b.view.generation = 0) ∧
    (∀ x, b.state = .loading → b.content = some x → b.view.generation = x.header.generation) ∧
    (b.state = .ready ∨ b.state = .active ∨ b.state = .retiring → b.view.generation = b.generation) := by
  unfold BankSlot.view
  refine ⟨rfl, rfl, fun empty => by simp [empty], fun x loading content => by simp [loading, content, BankSlot.bank], ?_⟩
  rintro (ready | active | retiring)
  · simp [ready]
  · simp [active]
  · simp [retiring]

/-- Settles O59: each read by the tests it makes. -/
theorem readsAnswered : Obligations.ReadsAnswered := by
  unfold Obligations.ReadsAnswered
  intro s on
  refine ⟨fun start => ⟨exec_answers on ?_, exec_answers on ?_⟩, fun unread => ⟨exec_answers on ?_, exec_answers on ?_⟩,
    fun opened => exec_answers on ?_, fun empty => exec_answers on ?_,
    fun l latched past => exec_answers on (readFundsNext_past latched past),
    fun l figure octets latched figures sizes => exec_answers on (readFundsNext_of_figure latched figures sizes),
    fun index high => exec_answers on (if_pos high), fun index low => exec_answers on ?_, fun b => ?_, exec_answers on rfl,
    fun opened => exec_answers on ?_, exec_answers on rfl, exec_answers on ?_⟩
  · simp only [effect, readFunds, start]
    rfl
  · simp only [effect, readSpoilOldest, start]
    rfl
  · simp only [effect, readFunds, unread]
    rfl
  · simp only [effect, readSpoilOldest, unread]
    rfl
  · rcases opened with start | start <;> simp only [effect, readFunds, start] <;> rfl
  · simp only [effect, readFundsNext, empty]
    rfl
  · refine (if_neg (by omega)).trans ?_
    rw [pieceAnswer, anyDefaulted_eq]
    cases s.tracker.pieces[index]? <;> rfl
  · exact bankView b
  · rcases opened with start | start <;> simp only [effect, readSpoilOldest, start] <;> rfl
  · rfl

/-! ## CREDIT and DRAIN_SPOIL (R131, R133) -/

/-- A CREDIT refused (R131). -/
theorem creditHead_refused {amount : Nat} {s : State} {code : RefusalCode} (refusal : creditRefusal amount s = some code) :
    creditHead amount s = answerStore (.refused code) s := by
  unfold creditHead
  rw [refusal]

/-- A CREDIT admitted (R131). -/
theorem creditHead_admitted {amount : Nat} {s : State} (passes : creditRefusal amount s = none) :
    creditHead amount s = answerStore .accepted (enqueueWrite (.credit amount) s) := by
  unfold creditHead
  rw [passes]

/-- A DRAIN_SPOIL refused (R133). -/
theorem drainHead_refused {sequence : Nat} {s : State} {code : RefusalCode} (refusal : drainRefusal sequence s = some code) :
    drainHead sequence s = answerStore (.refused code) s := by
  unfold drainHead
  rw [refusal]

/-- A DRAIN_SPOIL admitted (R133). -/
theorem drainHead_admitted {sequence : Nat} {s : State} (passes : drainRefusal sequence s = none) :
    drainHead sequence s = answerStore .accepted (enqueueWrite (.drain sequence) s) := by
  unfold drainHead
  rw [passes]

/-- The answer of a store command that put one write in the queue (R167). -/
theorem answerStore_enqueueWrite (w : StoreWrite) (s : State) : answerStore .accepted (enqueueWrite w s) =
    answer .accepted (.store (s.funds.writes.length + 1)) .nothing
      { s with funds := { s.funds with writes := s.funds.writes ++ [w] } } := by
  unfold answerStore
  rw [enqueueWrite_writes, List.length_append, List.length_singleton]
  rfl

/-- The tests of R131 in order. -/
theorem credit_judged (amount : Nat) (s : State) :
    let low := s.store.dr + creditsIn s.funds.writes + amount ≤ 2000000000
    let room := s.store.ct + creditsIn s.funds.writes + amount ≤ 281474976710655
    (s.mode ≠ .standby → creditRefusal amount s = some .wrongMode) ∧
    (s.mode = .standby → amount = 0 → creditRefusal amount s = some .badAmount) ∧
    (s.mode = .standby → amount ≠ 0 → ¬low → creditRefusal amount s = some .overCeiling) ∧
    (s.mode = .standby → amount ≠ 0 → low → ¬room → creditRefusal amount s = some .totalFull) ∧
    (s.mode = .standby → amount ≠ 0 → low → room → 6 ≤ s.funds.writes.length → creditRefusal amount s = some .queueFull) ∧
    (s.mode = .standby → amount ≠ 0 → low → room → s.funds.writes.length < 6 → creditRefusal amount s = none) := by
  simp only [creditRefusal]
  refine ⟨fun mode => if_pos mode, fun mode zero => ?_, fun mode some high => ?_, fun mode some low full => ?_,
    fun mode some low room queue => ?_, fun mode some low room queue => ?_⟩
  · rw [if_neg (not_not_intro mode), if_pos zero]
  · rw [if_neg (not_not_intro mode), if_neg some, if_pos (by omega)]
  · rw [if_neg (not_not_intro mode), if_neg some, if_neg (by omega), if_pos (by omega)]
  · rw [if_neg (not_not_intro mode), if_neg some, if_neg (by omega), if_neg (by omega), if_pos queue]
  · rw [if_neg (not_not_intro mode), if_neg some, if_neg (by omega), if_neg (by omega), if_neg (by omega)]

/-- The tests of R133 in order. -/
theorem drain_judged (sequence : Nat) (s : State) :
    let may := s.mode = .standby ∨ s.mode = .quiet
    (¬may → drainRefusal sequence s = some .wrongMode) ∧
    (may → s.oldestUnclaimed = none → drainRefusal sequence s = some .spoilEmpty) ∧
    ∀ x, may → s.oldestUnclaimed = some x →
      (x.sequence ≠ sequence → drainRefusal sequence s = some .sequenceMismatch) ∧
      (x.sequence = sequence → 6 ≤ s.funds.writes.length → drainRefusal sequence s = some .queueFull) ∧
      (x.sequence = sequence → s.funds.writes.length < 6 → drainRefusal sequence s = none) := by
  simp only [drainRefusal]
  refine ⟨fun mayNot => if_pos mayNot, fun may none => ?_, fun x may oldest => ?_⟩
  · rw [if_neg (not_not_intro may), none]
  · rw [if_neg (not_not_intro may), oldest]
    refine ⟨fun other => if_pos other, fun same full => ?_, fun same room => ?_⟩
    · exact (if_neg (not_not_intro same)).trans (if_pos full)
    · exact (if_neg (not_not_intro same)).trans (if_neg (by omega))

/-- Settles O60: each command by the tests above. -/
theorem storeCommandsAndTransfers : Obligations.StoreCommandsAndTransfers := by
  unfold Obligations.StoreCommandsAndTransfers
  intro s on
  refine ⟨fun amount => ?_, fun sequence => ?_, fun code => exec_answers on rfl, exec_answers on rfl, exec_answers on rfl,
    exec_answers on rfl, exec_answers on rfl⟩
  · obtain ⟨wrong, zero, high, full, queue, passes⟩ := credit_judged amount.toNat s
    have positive : amount ≠ 0 → amount.toNat ≠ 0 := fun other zero => other (BitVec.eq_of_toNat_eq (by simpa using zero))
    refine ⟨fun mode => exec_answers on (creditHead_refused (wrong mode)),
      fun mode none => exec_answers on (creditHead_refused (zero mode (by simp [none]))),
      fun mode some above => exec_answers on (creditHead_refused (high mode (positive some) above)),
      fun mode some low above => exec_answers on (creditHead_refused (full mode (positive some) low above)),
      fun mode some low room length => exec_answers on (creditHead_refused (queue mode (positive some) low room length)),
      fun mode some low room length => exec_answers on ?_⟩
    exact (creditHead_admitted (passes mode (positive some) low room length)).trans (answerStore_enqueueWrite _ s)
  · obtain ⟨wrong, empty, judged⟩ := drain_judged sequence s
    refine ⟨fun mayNot => exec_answers on (drainHead_refused (wrong mayNot)),
      fun may none => exec_answers on (drainHead_refused (empty may (List.getElem?_eq_none none))), fun x may oldest => ?_⟩
    obtain ⟨mismatch, queue, passes⟩ := judged x may oldest
    exact ⟨fun other => exec_answers on (drainHead_refused (mismatch other)),
      fun same full => exec_answers on (drainHead_refused (queue same full)),
      fun same room => exec_answers on ((drainHead_admitted (passes same room)).trans (answerStore_enqueueWrite _ s))⟩

end Sys2Proof.Machine
end

section
/-! The funds and spoil thresholds (R48, R139 to R141), and CONFIGURE (R168, R170). -/

set_option Elab.async false

namespace Sys2Proof.Machine

/-! ## The funds levels -/

/-- A held condition AT_FUNDS_LOW is met (R48, R49). -/
theorem meetFundsLow_met {s : State} (held : s.intake.quiesce = .atFundsLow) : (meetFundsLow s).intake.quiesce = .none ∧
    (meetFundsLow s).mode = if s.tracker.pieces = [] then .quiet else .quiescing := by
  unfold meetFundsLow
  rw [if_pos held]
  refine ⟨enterQuiescing_quiesce s, ?_⟩
  split
  next empty => exact (enterQuiescing_of_no_pieces empty).1
  next some => exact (enterQuiescing_of_pieces some).1

/-- Without a held condition AT_FUNDS_LOW nothing is met. -/
theorem meetFundsLow_unmet {s : State} (other : s.intake.quiesce ≠ .atFundsLow) : meetFundsLow s = s :=
  if_neg other

/-- Meeting the condition raises no event but QUIET_REACHED. -/
theorem meetFundsLow_events {e : Event} (other : e ≠ .quietReached) (s : State) :
    e ∈ (meetFundsLow s).port.events ↔ e ∈ s.port.events := by
  by_cases held : s.intake.quiesce = .atFundsLow
  · unfold meetFundsLow
    rw [if_pos held]
    by_cases empty : s.tracker.pieces = []
    · rw [(enterQuiescing_of_no_pieces empty).2, raise_events, mem_addEvent_iff]
      simp [other]
    · rw [(enterQuiescing_of_pieces empty).2]
  · rw [meetFundsLow_unmet held]

/-- FUNDS_LOW is newly raised when the warn level is judged. -/
def State.newlyLow (s : State) (c : Configuration) : Prop :=
  s.store.dr < s.funds.pledged + c.warnLevel ∧ s.funds.lowMark = false

/-- The warn level is judged newly crossed (R140). -/
theorem judgeLow_of_low {c : Configuration} {s : State} (low : s.newlyLow c) :
    judgeLow c s = meetFundsLow (raise .fundsLow { s with funds := { s.funds with lowMark := true } }) := by
  unfold judgeLow
  rw [if_pos ((fundsBelow_iff s _).mpr low.1), if_neg (by simp [low.2])]

/-- The warn level is judged otherwise (R140). -/
theorem judgeLow_of_not_low {c : Configuration} {s : State} (notLow : ¬s.newlyLow c) :
    judgeLow c s = { s with funds := { s.funds with lowMark := s.fundsBelow c.warnLevel } } := by
  unfold judgeLow
  split
  next below =>
    have marked : s.funds.lowMark = true := Bool.not_eq_false _ ▸ fun clear => notLow ⟨(fundsBelow_iff s _).mp below, clear⟩
    rw [if_pos marked, below, ← marked]
  next enough => rw [Bool.eq_false_iff.mpr enough]

/-- The take floor is judged (R140). -/
theorem judgeOut_eq (c : Configuration) (s : State) : judgeOut c s =
    (let t := { s with funds := { s.funds with outMark := s.fundsBelow c.takeFloor } }
     if s.fundsBelow c.takeFloor = true ∧ s.funds.outMark = false then raise .fundsOut t else t) := by
  unfold judgeOut
  split
  next below =>
    split
    next marked => rw [if_neg (by simp [marked]), below, ← marked]
    next clear => rw [if_pos ⟨below, by simpa using clear⟩, below]
  next enough => rw [if_neg (by simp [enough]), Bool.eq_false_iff.mpr enough]

/-- The mark of the warn level once it is judged. -/
theorem judgeLow_lowMark (c : Configuration) (s : State) : (judgeLow c s).funds.lowMark = s.fundsBelow c.warnLevel := by
  by_cases low : s.newlyLow c
  · rw [judgeLow_of_low low, (fundsBelow_iff s _).mpr low.1]
    unfold meetFundsLow enterQuiescing settleQuiet
    split
    · split <;> rfl
    · rfl
  · rw [judgeLow_of_not_low low]

/-- The events pending once the warn level is judged, but for QUIET_REACHED. -/
theorem judgeLow_events (c : Configuration) (s : State) {e : Event} (other : e ≠ .quietReached) :
    e ∈ (judgeLow c s).port.events ↔ e ∈ s.port.events ∨ e = .fundsLow ∧ s.newlyLow c := by
  by_cases low : s.newlyLow c
  · rw [judgeLow_of_low low, meetFundsLow_events other, raise_events, mem_addEvent_iff]
    simp only [low, and_true]
    exact or_comm
  · rw [judgeLow_of_not_low low]
    simp [low]

/-- The events pending once the take floor is judged. -/
theorem judgeOut_events (c : Configuration) (s : State) (e : Event) : e ∈ (judgeOut c s).port.events ↔
    e ∈ s.port.events ∨ e = .fundsOut ∧ s.fundsBelow c.takeFloor = true ∧ s.funds.outMark = false := by
  rw [judgeOut_eq]
  dsimp only
  split
  next out =>
    rw [raise_events, mem_addEvent_iff]
    simp only [out, and_self, and_true]
    exact or_comm
  next notOut => simp [notOut]

/-- The mark of the take floor once it is judged. -/
theorem judgeOut_outMark (c : Configuration) (s : State) : (judgeOut c s).funds.outMark = s.fundsBelow c.takeFloor := by
  rw [judgeOut_eq]
  dsimp only
  split <;> rfl

/-- The funds levels are judged by the configuration record. -/
theorem judgeFunds_of_config {s : State} {c : Configuration} (config : s.port.config = some c) :
    judgeFunds s = judgeOut c (judgeLow c s) := by
  unfold judgeFunds
  rw [config]

/-- A level is below the free funds the warn level was judged for. -/
theorem judgeLow_fundsBelow (c : Configuration) (s : State) (level : Nat) :
    (judgeLow c s).fundsBelow level = s.fundsBelow level := by
  unfold State.fundsBelow
  simp

/-- Mode and Intake Unit once the funds levels are judged, where no held condition is met. -/
theorem judgeFunds_unmet {s : State} {c : Configuration} (config : s.port.config = some c)
    (unmet : ¬s.newlyLow c ∨ s.intake.quiesce ≠ .atFundsLow) :
    (judgeFunds s).mode = s.mode ∧ (judgeFunds s).intake = s.intake := by
  rw [judgeFunds_of_config config]
  simp only [judgeOut_keeps]
  by_cases low : s.newlyLow c
  · rw [judgeLow_of_low low, meetFundsLow_unmet]
    · exact ⟨rfl, rfl⟩
    · exact unmet.resolve_left (not_not_intro low)
  · rw [judgeLow_of_not_low low]
    exact ⟨rfl, rfl⟩

/-! ## The spoil levels -/

/-- The spoil level of 40 judged (R141). -/
theorem judgeWarn_eq (s : State) : judgeWarn s =
    (let t := { s with funds := { s.funds with warnMark := decide (40 ≤ s.store.spoils.length) } }
     if 40 ≤ s.store.spoils.length ∧ s.funds.warnMark = false then raise .spoilWarn t else t) := by
  unfold judgeWarn
  split
  next warn =>
    split
    next marked => rw [if_neg (by simp [marked]), decide_eq_true warn, ← marked]
    next clear => rw [if_pos ⟨warn, by simpa using clear⟩, decide_eq_true warn]
  next below => rw [if_neg (by simp [below]), decide_eq_false below]

/-- The spoil level of 48 judged (R141). -/
theorem judgeFull_eq (s : State) : judgeFull s =
    (let t := { s with funds := { s.funds with fullMark := decide (48 ≤ s.store.spoils.length) } }
     if 48 ≤ s.store.spoils.length ∧ s.funds.fullMark = false then raise .spoilFull t else t) := by
  unfold judgeFull
  split
  next full =>
    split
    next marked => rw [if_neg (by simp [marked]), decide_eq_true full, ← marked]
    next clear => rw [if_pos ⟨full, by simpa using clear⟩, decide_eq_true full]
  next below => rw [if_neg (by simp [below]), decide_eq_false below]

/-- The marks and the events once both spoil levels are judged. -/
theorem judgeBoth_judged (s : State) :
    ((judgeFull (judgeWarn s)).funds.warnMark = true ↔ 40 ≤ s.store.spoils.length) ∧
    ((judgeFull (judgeWarn s)).funds.fullMark = true ↔ 48 ≤ s.store.spoils.length) ∧
    (.spoilWarn ∈ (judgeFull (judgeWarn s)).port.events ↔
      .spoilWarn ∈ s.port.events ∨ 40 ≤ s.store.spoils.length ∧ s.funds.warnMark = false) ∧
    (.spoilFull ∈ (judgeFull (judgeWarn s)).port.events ↔
      .spoilFull ∈ s.port.events ∨ 48 ≤ s.store.spoils.length ∧ s.funds.fullMark = false) := by
  have warn : ∀ e, e ∈ (judgeWarn s).port.events ↔
      e ∈ s.port.events ∨ e = .spoilWarn ∧ 40 ≤ s.store.spoils.length ∧ s.funds.warnMark = false := fun e => by
    rw [judgeWarn_eq]
    dsimp only
    split
    next new =>
      rw [raise_events, mem_addEvent_iff]
      simp only [new, and_self, and_true]
      exact or_comm
    next old => simp [old]
  have full : ∀ e t, e ∈ (judgeFull t).port.events ↔
      e ∈ t.port.events ∨ e = .spoilFull ∧ 48 ≤ t.store.spoils.length ∧ t.funds.fullMark = false := fun e t => by
    rw [judgeFull_eq]
    dsimp only
    split
    next new =>
      rw [raise_events, mem_addEvent_iff]
      simp only [new, and_self, and_true]
      exact or_comm
    next old => simp [old]
  have warnMark : (judgeWarn s).funds.warnMark = decide (40 ≤ s.store.spoils.length) := by
    rw [judgeWarn_eq]
    dsimp only
    split <;> rfl
  have fullMark : ∀ t, (judgeFull t).funds.fullMark = decide (48 ≤ t.store.spoils.length) := fun t => by
    rw [judgeFull_eq]
    dsimp only
    split <;> rfl
  refine ⟨?_, ?_, ?_, ?_⟩
  · simp [warnMark]
  · simp [fullMark]
  · simp [full, warn]
  · simp [full, warn]

/-- Settles O27: each level by its equation, the two funds levels in turn. -/
theorem thresholdsJudged : Obligations.ThresholdsJudged := by
  unfold Obligations.ThresholdsJudged
  refine ⟨fun s c config => ?_, fun s before changed => ?_⟩
  · have levels := judgeFunds_of_config config
    refine ⟨?_, ?_, ?_, ?_, fun low held => ?_, judgeFunds_unmet config, by simp, by simp, by simp, by simp⟩
    · simp only [levels, judgeOut_keeps, judgeLow_lowMark, fundsBelow_iff]
    · simp only [levels, judgeOut_outMark, judgeLow_fundsBelow, fundsBelow_iff]
    · simp only [levels, judgeOut_events, judgeLow_events c s (e := .fundsLow) nofun, true_and, reduceCtorEq, false_and, or_false]
      rfl
    · simp only [levels, judgeOut_events, judgeLow_events c s (e := .fundsOut) nofun, judgeLow_fundsBelow, judgeLow_keeps,
        fundsBelow_iff, true_and, reduceCtorEq, false_and, or_false]
    · rw [levels, judgeLow_of_low low]
      simp only [judgeOut_keeps]
      exact meetFundsLow_met (s := raise _ _) held
  · have both : judgeSpoils before s = judgeFull (judgeWarn s) := if_neg changed
    obtain ⟨warnMark, fullMark, warn, full⟩ := judgeBoth_judged s
    simp only [both]
    exact ⟨warnMark, fullMark, warn, full, by simp, by simp, by simp⟩

/-! ## CONFIGURE -/

/-- The twelve field tests of R170, in order. -/
def fieldTests (c : Configuration) : List Bool :=
  [decide (1 ≤ c.station ∧ c.station ≤ 30), decide (1 ≤ c.distance ∧ c.distance ≤ 4194304),
    decide (2 ≤ c.cutoffLead ∧ c.cutoffLead ≤ c.distance), decide (1 ≤ c.commitLead ∧ c.commitLead + 1 ≤ c.cutoffLead),
    decide (c.distance + c.resultWindow ≤ 4194304), decide (1 ≤ c.takeLimit ∧ c.takeLimit ≤ 8),
    decide (1 ≤ c.holdLevel ∧ c.holdLevel ≤ c.takeLimit), decide (c.resumeLevel + 1 ≤ c.holdLevel),
    decide (c.resolution = 1 ∨ c.resolution = 5 ∨ c.resolution = 10 ∨ c.resolution = 50), decide (c.seed ≤ 65535),
    decide (c.takeFloor ≤ 2000000000), decide (c.takeFloor ≤ c.warnLevel ∧ c.warnLevel ≤ 2000000000)]

/-- The place of the first test that fails, as a condition on the front one. -/
theorem findIdx?_test (n : Nat) (p : Prop) [Decidable p] (rest : List Bool) :
    ((decide p :: rest).findIdx? not).map (· + n) = if ¬p then some n else (rest.findIdx? not).map (· + (n + 1)) := by
  rw [List.findIdx?_cons]
  by_cases holds : p
  · simp [holds, Function.comp_def, Nat.add_assoc, Nat.add_comm 1]
  · simp [holds]

/-- The first field out of range is the place of the first test that fails. -/
theorem firstBadField_eq (c : Configuration) : firstBadField c = ((fieldTests c).findIdx? not).map (· + 1) := by
  unfold fieldTests
  simp only [findIdx?_test, Nat.add_comm c.distance]
  rfl

/-- The first failing test, in a list of tests taken apart. -/
theorem findIdx?_of_split (front back : List Bool) (passes : ∀ q ∈ front, q = true) :
    (front ++ false :: back).findIdx? not = some front.length := by
  rw [List.findIdx?_append, List.findIdx?_eq_none_iff.mpr (fun q mem => by simp [passes q mem])]
  simp [List.findIdx?_cons]

/-- CONFIGURE in SETUP with the store open and a field out of range (R170). -/
theorem configure_badField {s : State} {c : Configuration} {n : Nat} (setup : s.mode = .setup) (opened : s.funds.startup = .inUse)
    (bad : firstBadField c = some n) : configure c s = answerSetup (.refused .badField) (some n) s := by
  unfold configure
  rw [if_neg (not_not_intro setup), opened, bad]

/-- CONFIGURE in SETUP with the store open and every field in range (R170). -/
theorem configure_accepted {s : State} {c : Configuration} (setup : s.mode = .setup) (opened : s.funds.startup = .inUse)
    (good : firstBadField c = none) : configure c s = answerSetup .accepted none (acceptConfiguration c s) := by
  unfold configure
  rw [if_neg (not_not_intro setup), opened, good]

/-- Settles O55: the mode and the start-up state first, then the fields by `firstBadField_eq`. -/
theorem configureJudged : Obligations.ConfigureJudged := by
  unfold Obligations.ConfigureJudged
  intro c s on ranges
  have tests : (fieldTests c).map (· = true) = ranges := by simp [fieldTests, ranges]
  refine ⟨fun other => exec_answers on (if_pos other), fun setup start => exec_answers on ?_,
    fun setup opened => ⟨fun front p back split passes fails => exec_answers on ?_, fun passes => ?_⟩⟩
  · refine (if_neg (not_not_intro setup)).trans ?_
    rcases start with start | start <;> rw [start] <;> rfl
  · refine configure_badField setup opened ?_
    rw [← tests] at split
    obtain ⟨before, after, parts, rfl, rest⟩ := List.map_eq_append_iff.mp split
    obtain ⟨q, back, rfl, rfl, rfl⟩ := List.map_eq_cons_iff.mp rest
    obtain rfl : q = false := by simpa using fails
    rw [firstBadField_eq, parts, findIdx?_of_split before back fun x mem => passes _ (List.mem_map.mpr ⟨x, mem, rfl⟩)]
    simp
  · have good : firstBadField c = none := by
      rw [firstBadField_eq, List.findIdx?_eq_none_iff.mpr fun q mem => ?_]
      · rfl
      · have holds : q = true := passes _ (tests ▸ List.mem_map.mpr ⟨q, mem, rfl⟩)
        rw [holds]
        rfl
    refine ⟨_, exec_answers on (configure_accepted setup opened good), ?_, by simp [acceptConfiguration], fun unheld => ?_,
      by simp [acceptConfiguration], by simp [acceptConfiguration]⟩
    · have outputs : (acceptConfiguration c s).out = s.out := by simp [acceptConfiguration]
      unfold answerSetup answer
      rw [outputs]
      rfl
    · have kept := judgeFunds_unmet (s := { s with mode := .standby, port := { s.port with config := some c } }) rfl
        (.inr (by rw [show _ = _ from unheld]; nofun))
      simpa [acceptConfiguration] using kept.1

end Sys2Proof.Machine
end

section
/-! The checks of COMMIT_BANK, in their order (R87). -/

set_option Elab.async false

namespace Sys2Proof.Machine

/-! ## A check, and a list of checks -/

/-- What a check answers: its code alone where it fails as a whole, its code with an index where an entry fails it. -/
def checkOutcome (code : RefusalCode) (whole : Bool) (entry : Option Nat) : Option (RefusalCode × Option Nat) :=
  if whole then some (code, none) else entry.map fun i => (code, some i)

/-- An index found is the lowest that fails, and one is found where one fails. -/
structure FindsFirst (entry : Option Nat) (fails : Nat → Prop) : Prop where
  none : (∀ i, ¬fails i) → entry = none
  some : ∀ i, fails i → (∀ k, k < i → ¬fails k) → entry = some i

/-- What a check of the statement says of the outcome of a check: the outcome is that of its code, of whether it fails as a whole,
and of the lowest index that fails it. -/
def Answers (outcome : Option (RefusalCode × Option Nat)) (check : RefusalCode × Prop × (Nat → Prop)) : Prop :=
  ∃ whole entry, outcome = checkOutcome check.1 whole entry ∧ (whole = true ↔ check.2.1) ∧ FindsFirst entry check.2.2

/-- A check that passes answers nothing. -/
theorem Answers.of_passes {outcome : Option (RefusalCode × Option Nat)} {check : RefusalCode × Prop × (Nat → Prop)}
    (h : Answers outcome check) (passes : ¬check.2.1 ∧ ∀ i, ¬check.2.2 i) : outcome = none := by
  obtain ⟨whole, entry, rfl, fails, finds⟩ := h
  unfold checkOutcome
  rw [if_neg fun failed => passes.1 (fails.mp failed), finds.none passes.2]
  rfl

/-- A check that fails as a whole answers its code. -/
theorem Answers.of_whole {outcome : Option (RefusalCode × Option Nat)} {check : RefusalCode × Prop × (Nat → Prop)}
    (h : Answers outcome check) (failed : check.2.1) : outcome = some (check.1, none) := by
  obtain ⟨whole, entry, rfl, fails, -⟩ := h
  exact if_pos (fails.mpr failed)

/-- A check that an entry fails answers the lowest index. -/
theorem Answers.of_entry {outcome : Option (RefusalCode × Option Nat)} {check : RefusalCode × Prop × (Nat → Prop)}
    (h : Answers outcome check) (passed : ¬check.2.1) {i : Nat} (failed : check.2.2 i) (least : ∀ k, k < i → ¬check.2.2 k) :
    outcome = some (check.1, some i) := by
  obtain ⟨whole, entry, rfl, fails, finds⟩ := h
  unfold checkOutcome
  rw [if_neg fun failed => passed (fails.mp failed), finds.some i failed least]
  rfl

/-- When every check passes the first answer is none. -/
theorem findSome?_of_passes {outcomes : List (Option (RefusalCode × Option Nat))} {checks : List (RefusalCode × Prop × (Nat → Prop))}
    (h : List.Forall₂ Answers outcomes checks) (passes : ∀ x ∈ checks, ¬x.2.1 ∧ ∀ i, ¬x.2.2 i) :
    outcomes.findSome? id = none := by
  induction h with
  | nil => rfl
  | cons answers _ ih =>
    rw [List.findSome?_cons, id, answers.of_passes (passes _ List.mem_cons_self)]
    exact ih fun x mem => passes x (List.mem_cons_of_mem _ mem)

/-- When the checks before one pass, the first answer is its answer if it has one. -/
theorem findSome?_of_split {outcomes : List (Option (RefusalCode × Option Nat))} {front back : List (RefusalCode × Prop × (Nat → Prop))}
    {x : RefusalCode × Prop × (Nat → Prop)} (h : List.Forall₂ Answers outcomes (front ++ x :: back))
    (passes : ∀ y ∈ front, ¬y.2.1 ∧ ∀ i, ¬y.2.2 i) :
    (x.2.1 → outcomes.findSome? id = some (x.1, none)) ∧
    (¬x.2.1 → ∀ i, x.2.2 i → (∀ k, k < i → ¬x.2.2 k) → outcomes.findSome? id = some (x.1, some i)) := by
  induction front generalizing outcomes with
  | nil =>
    obtain ⟨answers, -⟩ | ⟨answers, -⟩ := h
    exact ⟨fun failed => by rw [List.findSome?_cons, id, answers.of_whole failed],
      fun passed i failed least => by rw [List.findSome?_cons, id, answers.of_entry passed failed least]⟩
  | cons y front ih =>
    obtain _ | ⟨answers, rest⟩ := h
    rw [List.findSome?_cons, id, answers.of_passes (passes y List.mem_cons_self)]
    exact ih rest fun z mem => passes z (List.mem_cons_of_mem _ mem)

/-! ## The checks 2 to 8 -/

/-- The answers of the checks 2 to 8, in order. -/
def checkOutcomes (resolution : Nat) (b : Bank) : List (Option (RefusalCode × Option Nat)) :=
  [checkOutcome .bankLimits (decide (31 < b.header.serviceLimit ∨ 127 < b.header.stepLimit)) none,
    checkOutcome .stepRange false (firstFailing b (stepRangeGood b)),
    checkOutcome .stepOrder false (firstFailing b (stepOrderGood b)),
    checkOutcome .bankCharge (decide (b.header.valueCeiling % resolution ≠ 0)) (firstFailing b (chargeGood resolution b)),
    checkOutcome .perMille false (firstFailing b perMilleGood),
    checkOutcome .zoneDuplicate false (firstDuplicate [] b.zonesInUse),
    checkOutcome .zoneRange (decide (15 < b.header.defaultZone))
      ((b.zonesInUse.find? fun x => decide (15 < x.2.zone)).map Prod.fst)]

/-- The commit of a LOADING slot answers the first of them. -/
theorem commitChecks_eq (resolution : Nat) {slot : BankSlot} (loading : slot.state = .loading) :
    commitChecks resolution slot = (checkOutcomes resolution slot.bank).findSome? id := by
  unfold commitChecks entryChecks checkOutcomes
  rw [if_neg (not_not_intro loading)]
  by_cases limits : 31 < slot.bank.header.serviceLimit ∨ 127 < slot.bank.header.stepLimit
  · rw [if_pos limits, decide_eq_true limits]
    rfl
  rw [if_neg limits, decide_eq_false limits]
  cases firstFailing slot.bank (stepRangeGood slot.bank) with | some i => rfl | none => ?_
  cases firstFailing slot.bank (stepOrderGood slot.bank) with | some i => rfl | none => ?_
  by_cases ceiling : slot.bank.header.valueCeiling % resolution ≠ 0
  · simp only [if_pos ceiling, decide_eq_true ceiling]
    rfl
  simp only [if_neg ceiling, decide_eq_false ceiling]
  cases firstFailing slot.bank (chargeGood resolution slot.bank) with | some i => rfl | none => ?_
  cases firstFailing slot.bank perMilleGood with | some i => rfl | none => ?_
  cases firstDuplicate [] slot.bank.zonesInUse with | some i => rfl | none => ?_
  by_cases zone : 15 < slot.bank.header.defaultZone
  · simp only [if_pos zone, decide_eq_true zone]
    rfl
  simp only [if_neg zone, decide_eq_false zone]
  cases slot.bank.zonesInUse.find? fun x => decide (15 < x.2.zone) <;> rfl

/-- An entry of a descriptor check, by what failing it is. -/
theorem findsFirst_descriptor {b : Bank} {good : ServiceEntry → Bool} {fails : Nat → Prop}
    (spelled : ∀ i, fails i ↔ b.uses i ∧ good (b.service i) = false) : FindsFirst (firstFailing b good) fails where
  none passes := (firstFailing_none b good).mpr fun i used =>
    Bool.not_eq_false _ ▸ fun failed => passes i ((spelled i).mpr ⟨used, failed⟩)
  some i failed least := by
    obtain ⟨used, fails⟩ := (spelled i).mp failed
    exact firstFailing_some b good i used fails fun k before used =>
      Bool.not_eq_false _ ▸ fun failed => least k before ((spelled k).mpr ⟨used, failed⟩)

/-- The zone check finds the lowest entry in use out of range. -/
theorem findsFirst_zoneRange (b : Bank) : FindsFirst ((b.zonesInUse.find? fun x => decide (15 < x.2.zone)).map Prod.fst)
    fun k => b.maps k ∧ 15 < (b.zone k).zone where
  none passes := by
    rw [List.find?_eq_none.mpr fun x mem => ?_]
    · rfl
    · obtain ⟨used, entry⟩ := (mem_zonesInUse b x).mp mem
      simpa [entry] using fun high => passes x.1 ⟨used, high⟩
  some k failed least := by
    obtain ⟨front, back, parts, before⟩ := zonesInUse_split b k failed.1
    rw [parts, List.find?_append, List.find?_eq_none.mpr fun x mem => ?_]
    · simp [failed.2]
    · obtain ⟨inUse, below⟩ := (before x).mp mem
      obtain ⟨used, entry⟩ := (mem_zonesInUse b x).mp inUse
      simpa [entry] using fun high => least x.1 below ⟨used, high⟩

/-- Two zone-map entries alike. -/
def Bank.alike (b : Bank) (k l : Nat) : Prop :=
  (b.zone k).count = (b.zone l).count ∧
    (b.zone k).digits.take (b.zone k).count = (b.zone l).digits.take (b.zone l).count

/-- Entries with the same digits are alike. -/
theorem sameDigits_iff (b : Bank) (k l : Nat) : sameDigits (b.zone k) (b.zone l) = true ↔ b.alike k l := by
  simp [sameDigits, Bank.alike]

/-- The duplicate check finds the lowest entry in use that is like one before it. -/
theorem findsFirst_duplicate (b : Bank) : FindsFirst (firstDuplicate [] b.zonesInUse)
    fun k => b.maps k ∧ ∃ l, l < k ∧ b.maps l ∧ b.alike l k where
  none passes := by
    refine (firstDuplicate_none [] _).mpr ⟨nofun, (zonesInUse_increase b).imp_of_mem fun {x y} memX memY below => ?_⟩
    obtain ⟨usedX, entryX⟩ := (mem_zonesInUse b x).mp memX
    obtain ⟨usedY, entryY⟩ := (mem_zonesInUse b y).mp memY
    rw [entryX, entryY]
    exact Bool.eq_false_iff.mpr fun same => passes y.1 ⟨usedY, x.1, below, usedX, (sameDigits_iff b _ _).mp same⟩
  some k failed least := by
    obtain ⟨used, l, below, usedL, same⟩ := failed
    obtain ⟨front, back, parts, before⟩ := zonesInUse_split b k used
    have rise := zonesInUse_increase b
    rw [parts] at rise ⊢
    refine firstDuplicate_some [] front back (k, b.zone k) ?_ ⟨(l, b.zone l), .inr ?_, (sameDigits_iff b _ _).mpr same⟩
    · refine (firstDuplicate_none [] _).mpr ⟨nofun, (List.pairwise_append.mp rise).1.imp_of_mem fun {x y} memX memY order => ?_⟩
      obtain ⟨inUseX, -⟩ := (before x).mp memX
      obtain ⟨inUseY, belowY⟩ := (before y).mp memY
      obtain ⟨usedX, entryX⟩ := (mem_zonesInUse b x).mp inUseX
      obtain ⟨usedY, entryY⟩ := (mem_zonesInUse b y).mp inUseY
      rw [entryX, entryY]
      exact Bool.eq_false_iff.mpr fun same => least y.1 belowY ⟨usedY, x.1, order, usedX, (sameDigits_iff b _ _).mp same⟩
    · exact (before _).mpr ⟨(mem_zonesInUse b _).mpr ⟨usedL, rfl⟩, below⟩

end Sys2Proof.Machine
end

section
/-! LOAD_BANK_BLOCK and COMMIT_BANK (R85 to R88). -/

set_option Elab.async false

namespace Sys2Proof.Machine

/-- A slot number above 1 is none. -/
theorem slotOf_high {slot : Nat} (high : 1 < slot) : slotOf slot = none := by
  match slot, high with
  | _ + 2, _ => rfl

/-- LOAD_BANK_BLOCK with a bad slot, part, index or field (R86). -/
theorem loadBank_refused {slot index : Nat} {part : BankPart} {s : State} (bad : 1 < slot ∨ partGood index part = false) :
    loadBank slot index part s = answerSetup (.refused .badArgument) none s := by
  unfold loadBank
  rcases bad with high | bad
  · rw [slotOf_high high]
  · cases slotOf slot with
    | none => rfl
    | some n => exact if_neg (by simp [bad])

/-- LOAD_BANK_BLOCK past the tests of R86. -/
theorem loadBank_past {slot index : Nat} {part : BankPart} {n : SlotNo} (number : slotOf slot = some n)
    (good : partGood index part = true) (s : State) : loadBank slot index part s = loadInto n index part s := by
  unfold loadBank
  rw [number]
  exact if_pos good

/-- LOAD_BANK_BLOCK at a slot by its state (R85). -/
theorem loadInto_cases (n : SlotNo) (index : Nat) (part : BankPart) (s : State) :
    let b := s.rates.slot n
    (b.state = .active ∨ b.state = .retiring → loadInto n index part s = answerSetup (.refused .slotBusy) none s) ∧
    (b.state = .empty → loadInto n index part s = answerSetup .accepted none { s with
      rates := s.rates.setSlot n { b with state := .loading, content := some (blankBank.write index part) } }) ∧
    (b.state = .loading ∨ b.state = .ready → loadInto n index part s = answerSetup .accepted none { s with
      rates := s.rates.setSlot n { b with state := .loading, content := some (b.bank.write index part) } }) := by
  unfold loadInto BankSlot.load
  refine ⟨?_, fun empty => by simp only [empty, if_true], ?_⟩
  · rintro (state | state) <;> rw [state]
  · rintro (state | state) <;> simp only [state, reduceCtorEq, if_false]

/-- COMMIT_BANK with a configuration record and a good slot number (R87). -/
theorem commitBank_past {slot : Nat} {c : Configuration} {n : SlotNo} {s : State} (config : s.port.config = some c)
    (number : slotOf slot = some n) :
    (∀ code index, commitChecks c.resolution (s.rates.slot n) = some (code, index) →
      commitBank slot s = answerSetup (.refused code) index s) ∧
    (commitChecks c.resolution (s.rates.slot n) = none → commitBank slot s = answerSetup .accepted none (acceptCommit n s)) := by
  unfold commitBank
  rw [config, number]
  exact ⟨fun code index fails => by simp only [fails], fun passes => by simp only [passes]⟩

/-- COMMIT_BANK without a configuration record, or with a bad slot number (R87). -/
theorem commitBank_refused (slot : Nat) (s : State) :
    (s.port.config = none → commitBank slot s = answerSetup (.refused .wrongMode) none s) ∧
    ∀ c, s.port.config = some c → 1 < slot → commitBank slot s = answerSetup (.refused .badArgument) none s := by
  unfold commitBank
  exact ⟨fun none => by rw [none], fun c config high => by rw [config, slotOf_high high]⟩

/-- The tests of R86 on a part, spelled out. -/
theorem partGood_iff (index : Nat) (part : BankPart) : partGood index part = true ↔
    match part with
    | .header h => headerHeld h = true
    | .service e => (1 ≤ index ∧ index ≤ 31) ∧ serviceHeld e = true
    | .step e => index ≤ 127 ∧ stepHeld e = true
    | .zone e => index ≤ 255 ∧ zoneHeld e = true
    | .other _ => False := by
  cases part <;> simp [partGood]

/-- The header fields in range (R82). -/
theorem headerHeld_iff (h : BankHeader) : headerHeld h = true ↔ h.generation ≤ 65535 ∧ h.valueCeiling ≤ 99999999 ∧
    h.settleMargin ≤ 500 ∧ 1 ≤ h.divisor ∧ h.divisor ≤ 65535 ∧ h.defaultZone ≤ 255 ∧
    (∀ m : SizeLimit, m = h.letterMax ∨ m = h.largeLetterMax → m.length ≤ 1023 ∧ m.height ≤ 1023 ∧ m.thickness ≤ 255) ∧
    h.minLength ≤ 1023 ∧ h.minHeight ≤ 1023 ∧ h.aspectLow ≤ 255 ∧ h.aspectHigh ≤ 255 ∧ h.serviceLimit ≤ 255 ∧
    h.stepLimit ≤ 255 ∧ h.zoneCount ≤ 256 := by
  simp only [headerHeld, decide_eq_true_eq, forall_eq_or_imp, forall_eq]
  tauto

/-- The blank bank (R82). -/
theorem blankBank_entries : blankBank.services.length = 32 ∧ blankBank.steps.length = 128 ∧ blankBank.zones.length = 256 ∧
    (∀ e ∈ blankBank.services, e.present = false) ∧
    (∀ e ∈ blankBank.steps, e = { limit := 0, grain := .fine, basePrice := 0, zoneAdd := 0 }) ∧
    ∀ e ∈ blankBank.zones, e.count = 0 ∧ e.zone = 0 := by
  refine ⟨List.length_replicate, List.length_replicate, List.length_replicate, fun e mem => ?_, fun e mem => ?_, fun e mem => ?_⟩
  · rw [List.eq_of_mem_replicate mem]
    rfl
  · rw [List.eq_of_mem_replicate mem]
    rfl
  · rw [List.eq_of_mem_replicate mem]
    exact ⟨rfl, rfl⟩

/-- The commit accepted beside an ACTIVE slot, and without one (R88). -/
theorem acceptCommit_cases (n : SlotNo) (s : State) :
    let b := s.rates.slot n
    ((s.rates.slot n.other).state = .active → acceptCommit n s =
      { s with rates := s.rates.setSlot n { b with state := .ready, generation := b.bank.header.generation } }) ∧
    ((s.rates.slot n.other).state ≠ .active → acceptCommit n s = raise .bankSwitched { s with
      rates := { s.rates.setSlot n { b with state := .active, generation := b.bank.header.generation } with
        notReady := false } }) :=
  ⟨fun active => if_pos active, fun other => if_neg other⟩

/-- The checks of the statement are those the model makes. -/
theorem checks_answered (resolution : Nat) (b : Bank) : List.Forall₂ Answers (checkOutcomes resolution b) [
    (.bankLimits, 31 < b.header.serviceLimit ∨ 127 < b.header.stepLimit, fun _ => False),
    (.stepRange, False, fun i => b.uses i ∧ b.header.stepLimit < (b.service i).firstStep + (b.service i).stepCount - 1),
    (.stepOrder, False, fun i => b.uses i ∧ ¬∀ k, (b.service i).firstStep ≤ k →
      k + 1 < (b.service i).firstStep + (b.service i).stepCount → expandedLimit (b.step k) < expandedLimit (b.step (k + 1))),
    (.bankCharge, b.header.valueCeiling % resolution ≠ 0, fun i => b.uses i ∧
      ((b.service i).minCharge % resolution ≠ 0 ∨ b.header.valueCeiling < (b.service i).minCharge)),
    (.perMille, False, fun i => b.uses i ∧ (1000 < (b.service i).perMille0 ∨ 1000 < (b.service i).perMille1 ∨
      1000 < (b.service i).perMille2 ∨ 1000 < (b.service i).perMille3)),
    (.zoneDuplicate, False, fun k => b.maps k ∧ ∃ l, l < k ∧ b.maps l ∧ b.alike l k),
    (.zoneRange, 15 < b.header.defaultZone, fun k => b.maps k ∧ 15 < (b.zone k).zone)] := by
  have never : (false = true ↔ False) := by simp
  refine .cons ⟨_, _, rfl, decide_eq_true_iff, ⟨fun _ => rfl, fun _ failed => failed.elim⟩⟩ (.cons ⟨_, _, rfl, never, ?_⟩
    (.cons ⟨_, _, rfl, never, ?_⟩ (.cons ⟨_, _, rfl, decide_eq_true_iff, ?_⟩ (.cons ⟨_, _, rfl, never, ?_⟩
      (.cons ⟨_, _, rfl, never, findsFirst_duplicate b⟩ (.cons ⟨_, _, rfl, decide_eq_true_iff, findsFirst_zoneRange b⟩ .nil))))))
  · exact findsFirst_descriptor fun i => and_congr_right fun _ => by simp only [stepRangeGood, decide_eq_false_iff_not, not_le]
  · exact findsFirst_descriptor fun i => and_congr_right fun _ => by rw [← stepOrderGood_iff, Bool.not_eq_true]
  · refine findsFirst_descriptor fun i => and_congr_right fun _ => ?_
    simp only [chargeGood, decide_eq_false_iff_not, not_and_or, not_le, ne_eq]
  · refine findsFirst_descriptor fun i => and_congr_right fun _ => ?_
    simp only [perMilleGood, decide_eq_false_iff_not, not_and_or, not_le]

/-- Settles O56: the two commands by their tests, the fields by their ranges, the checks of a commit in their order. -/
theorem banksLoadedAndCommitted : Obligations.BanksLoadedAndCommitted := by
  unfold Obligations.BanksLoadedAndCommitted
  intro s on
  refine ⟨fun slot index part => ⟨fun bad => exec_answers on (loadBank_refused bad), fun n number good => ?_⟩, fun slot => ?_,
    ⟨rfl, rfl⟩, fun index part => ?_, fun b index => ⟨fun _ => rfl, fun _ => rfl, fun _ => rfl, fun _ => rfl⟩,
    ⟨rfl, blankBank_entries⟩, fun resolution slot loading => ?_⟩
  · obtain ⟨busy, empty, held⟩ := loadInto_cases n index part s
    have past := loadBank_past number good s
    exact ⟨fun state => exec_answers on (past.trans (busy state)), fun state => exec_answers on (past.trans (empty state)),
      fun state => exec_answers on (past.trans (held state))⟩
  · obtain ⟨unconfigured, high⟩ := commitBank_refused slot s
    refine ⟨fun none => exec_answers on (unconfigured none), fun c config => ⟨fun above => exec_answers on (high c config above),
      fun n number => ?_⟩⟩
    obtain ⟨refused, accepted⟩ := commitBank_past config number
    obtain ⟨beside, alone⟩ := acceptCommit_cases n s
    exact ⟨fun other => exec_answers on (refused _ _ (if_pos other)), fun code index fails => exec_answers on (refused _ _ fails),
      fun passes active => exec_answers on ((accepted passes).trans (congrArg _ (beside active))),
      fun passes other => exec_answers on ((accepted passes).trans (congrArg _ (alone other)))⟩
  · rw [partGood_iff]
    cases part with
    | header h => exact headerHeld_iff h
    | service e =>
      cases present : e.present <;> simp [serviceHeld, present, and_assoc]
    | step e => simp [stepHeld]
    | zone e => simp [zoneHeld, and_assoc]
    | other _ => rfl
  · rw [commitChecks_eq resolution loading]
    exact ⟨findSome?_of_passes (checks_answered resolution slot.bank), fun front x back split passes =>
      findSome?_of_split (split ▸ checks_answered resolution slot.bank) passes⟩

end Sys2Proof.Machine
end

section
/-! Events (R172), and octets: numbers, frames, reports, the indicium and the engine's messages (R3, R16 to R28, R144 to R148). -/

set_option Elab.async false

namespace Sys2Proof.Machine

/-! ## Events (R172) -/

/-- Every event is in the table, once. -/
theorem mem_allEvents (e : Event) : e ∈ allEvents := by
  cases e <;> decide

/-- The event at a place of the table. -/
theorem allEvents_idxOf {i : Nat} (inside : i < allEvents.length) : allEvents.idxOf allEvents[i] = i :=
  List.Nodup.idxOf_getElem (by decide) i inside

/-- The highest cause is the event pending before which no other in the table's order is pending. -/
theorem highestCause_iff (set : List Event) (e : Event) :
    highestCause set = some e ↔ e ∈ set ∧ ∀ x ∈ set, allEvents.idxOf e ≤ allEvents.idxOf x := by
  unfold highestCause
  rw [List.find?_eq_some_iff_getElem]
  constructor
  · rintro ⟨pending, i, inside, rfl, before⟩
    refine ⟨by simpa using pending, fun x mem => Nat.le_of_not_lt fun lower => ?_⟩
    rw [allEvents_idxOf] at lower
    have none := before _ lower
    rw [List.getElem_idxOf] at none
    simp [mem] at none
  · rintro ⟨pending, least⟩
    refine ⟨by simpa using pending, allEvents.idxOf e, List.idxOf_lt_length_iff.mpr (mem_allEvents e), List.getElem_idxOf _,
      fun j lower => ?_⟩
    rw [Bool.not_eq_true', List.contains_eq_mem, decide_eq_false_iff_not]
    intro mem
    have := least _ mem
    rw [allEvents_idxOf] at this
    omega

/-- Settles O13: the table by inspection, a raise by `mem_addEvent_iff`, the highest cause by its place in the table. -/
theorem raiseAddsOneEvent : Obligations.RaiseAddsOneEvent := by
  unfold Obligations.RaiseAddsOneEvent
  refine ⟨⟨rfl, mem_allEvents, fun e => by cases e <;> decide⟩, fun e x s => ⟨?_, ?_, rfl, rfl, rfl⟩, fun set => ⟨?_, ?_⟩,
    highestCause_iff⟩
  · rw [raise_events, mem_addEvent_iff]
  · simp [dropEvent, and_comm]
  · exact List.any_eq_true
  · simp [routineLine]

/-! ## Numbers in octets -/

/-- The octets of a number. -/
theorem toOctets_length (n v : Nat) : (toOctets n v).length = n := by
  induction n with
  | zero => rfl
  | succ n ih => rw [toOctets, List.length_cons, ih]

/-- A list of octets, one more at the end. -/
theorem ofOctets_append (a b : List Byte) : ofOctets (a ++ b) = ofOctets a * 256 ^ b.length + ofOctets b := by
  have from_ : ∀ (l : List Byte) (n : Nat),
      l.foldl (fun acc x => acc * 256 + x.toNat) n = n * 256 ^ l.length + ofOctets l := fun l => by
    unfold ofOctets
    induction l with
    | nil => simp
    | cons x l ih =>
      intro n
      rw [List.foldl_cons, ih, List.foldl_cons, ih (0 * 256 + x.toNat), List.length_cons]
      ring
  unfold ofOctets
  rw [List.foldl_append, from_]
  rfl

/-- A number read back from its octets. -/
theorem ofOctets_toOctets (n v : Nat) : ofOctets (toOctets n v) = v % 256 ^ n := by
  induction n with
  | zero => simp [toOctets, ofOctets, Nat.mod_one]
  | succ n ih =>
    have head : ofOctets [BitVec.ofNat 8 (v / 256 ^ n)] = v / 256 ^ n % 256 := by simp [ofOctets]
    rw [toOctets, ← List.singleton_append, ofOctets_append, ih, toOctets_length, head, pow_succ,
      Nat.mod_mul, Nat.add_comm, Nat.mul_comm]

/-- A number that fits, read back from its octets. -/
theorem ofOctets_toOctets_of_lt {n v : Nat} (fits : v < 256 ^ n) : ofOctets (toOctets n v) = v := by
  rw [ofOctets_toOctets, Nat.mod_eq_of_lt fits]

/-- The number in one octet. -/
theorem toNat_octet {n : Nat} (fits : n < 256) : (BitVec.ofNat 8 n).toNat = n := by
  rw [BitVec.toNat_ofNat]
  exact Nat.mod_eq_of_lt fits

/-- One octet. -/
theorem toOctets_one (n : Nat) : toOctets 1 n = [BitVec.ofNat 8 n] := by
  simp [toOctets]

/-! ## The frame on the link (R3) -/

/-- Settles O16: the fields stand at their offsets, the check at the end. -/
theorem frameOctetsAreGood : Obligations.FrameOctetsAreGood := by
  unfold Obligations.FrameOctetsAreGood
  intro f good
  obtain ⟨⟨hop, low⟩, short⟩ : (f.hop.toNat ≠ 0 ∧ f.hop.toNat ≤ 32) ∧ f.body.length ≤ 40 := by
    simpa [Frame.bad, and_assoc] using good
  have body : f.octets = f.kind :: f.origin :: f.hop :: BitVec.ofNat 8 f.body.length :: (f.body ++ registerOctets (lineCheck f.checked)) :=
    rfl
  have checked : f.checked.length = f.body.length + 4 := rfl
  have register : (registerOctets (lineCheck f.checked)).length = 2 := toOctets_length _ _
  have length : f.octets.length = f.body.length + 6 := by
    rw [Frame.octets, List.length_append, checked, register]
  have field : octetAt f.octets 3 = f.body.length := by
    rw [body]
    exact toNat_octet (by omega)
  have hopField : octetAt f.octets 2 = f.hop.toNat := rfl
  refine ⟨?_, ?_, length⟩
  · have front : f.octets.take (f.body.length + 4) = f.checked := by
      rw [Frame.octets, ← checked, List.take_left]
    have back : f.octets.drop (f.body.length + 4) = registerOctets (lineCheck f.checked) := by
      rw [Frame.octets, ← checked, List.drop_left]
    simp only [badOctets, field, hopField, front, back, length]
    simp
    omega
  · unfold frameOf
    rw [field, body]
    simp

/-! ## The indicium (R144, R145) -/

/-- Settles O18: each field by its place among the octets. -/
theorem indiciumLayout : Obligations.IndiciumLayout := by
  unfold Obligations.IndiciumLayout
  refine ⟨⟨rfl, rfl, rfl⟩, fun seed => ⟨rfl, fun octets b => checkOver_append _ _ octets b⟩, ?_⟩
  intro seed value dateCode station serial ar generation serviceClass shape p valueFits dateFits stationFits serialFits
    generationFits classFits
  have shapeFits : shapeCode shape ≤ 3 := by cases shape <;> decide
  have shapeAndClass : shapeCode shape * 32 + serviceClass < 256 ^ 1 := by omega
  exact ⟨rfl, ofOctets_toOctets_of_lt (n := 4) valueFits, ofOctets_toOctets_of_lt (n := 2) dateFits,
    ofOctets_toOctets_of_lt (n := 1) stationFits, ofOctets_toOctets_of_lt (n := 4) serialFits,
    ofOctets_toOctets_of_lt (n := 4) (Nat.mod_lt ar (by decide)), ofOctets_toOctets_of_lt (n := 2) generationFits,
    ofOctets_toOctets_of_lt (n := 1) shapeAndClass, ofOctets_toOctets_of_lt (n := 2) p.isLt,
    ofOctets_toOctets_of_lt (n := 2) (BitVec.isLt _)⟩

/-! ## The messages to and from the engine (R146, R148) -/

/-- The four-octet field at an offset, read from its octets. -/
theorem quadAt_eq (octets : List Byte) (i : Nat) : quadAt octets i =
    ofOctets [octets.getD i 0, octets.getD (i + 1) 0, octets.getD (i + 2) 0, octets.getD (i + 3) 0] := by
  simp only [quadAt, pairAt, octetAt, ofOctets, List.foldl_cons, List.foldl_nil]
  ring

/-- The serial of a result, read back from its octets. -/
theorem quadAt_toOctets (type : Byte) {serial : Nat} (fits : serial < 256 ^ 4) (rest : List Byte) :
    quadAt (type :: (toOctets 4 serial ++ rest)) 1 = serial :=
  (quadAt_eq _ 1).trans (ofOctets_toOctets_of_lt fits)

/-- A message whose check does not match is discarded. -/
theorem readEngine_of_check {octets : List Byte}
    (bad : octets.drop (octets.length - 2) ≠ registerOctets (lineCheck (octets.take (octets.length - 2)))) :
    readEngine octets = none :=
  if_pos bad.symm

/-- A message whose check matches, by its type and its length. -/
theorem readEngine_checked {octets : List Byte}
    (checked : registerOctets (lineCheck (octets.take (octets.length - 2))) = octets.drop (octets.length - 2)) :
    readEngine octets = if octetAt octets 0 = 0x61 ∧ octets.length = 7 then some (.done (quadAt octets 1))
      else if octetAt octets 0 = 0x62 ∧ octets.length = 8 then some (.failed (quadAt octets 1)) else none :=
  if_neg (not_not_intro checked)

/-- A message that is of neither type, or not of its type's length, is discarded. -/
theorem readEngine_of_type {octets : List Byte} (done : ¬(octetAt octets 0 = 0x61 ∧ octets.length = 7))
    (failed : ¬(octetAt octets 0 = 0x62 ∧ octets.length = 8)) : readEngine octets = none := by
  by_cases checked : registerOctets (lineCheck (octets.take (octets.length - 2))) = octets.drop (octets.length - 2)
  · rw [readEngine_checked checked, if_neg done, if_neg failed]
  · exact if_pos checked

/-- A message ended with its own check. -/
theorem check_of_ended (fields : List Byte) :
    let octets := fields ++ registerOctets (lineCheck fields)
    registerOctets (lineCheck (octets.take (octets.length - 2))) = octets.drop (octets.length - 2) := by
  have register : (registerOctets (lineCheck fields)).length = 2 := toOctets_length _ _
  simp only [List.length_append, register, Nat.add_sub_cancel, List.take_left, List.drop_left]

/-- Settles O19: the octets as they are composed, the results by the tests of R148. -/
theorem engineMessagesAreRead : Obligations.EngineMessagesAreRead := by
  unfold Obligations.EngineMessagesAreRead
  refine ⟨fun serial record => ?_, fun serial indicium length => ⟨?_, rfl, rfl, rfl⟩, fun serial reason => ⟨?_, ?_⟩,
    fun octets => ⟨fun notDone notFailed => ?_, fun done length => ?_, fun failed length => ?_, readEngine_of_check⟩⟩
  · intro four ended
    have spelled : ∀ m : EngineMessage, m.octets = ended m.fields := fun m => congrArg (m.fields ++ ·) (registerOctets_eq _)
    have serialOctets : toOctets 4 serial = four := toOctets_four serial
    rw [← serialOctets]
    exact ⟨spelled _, spelled _, spelled _, spelled _⟩
  · simp [EngineMessage.octets, EngineMessage.fields, registerOctets, toOctets_length, length]
  · refine (readEngine_checked (check_of_ended _)).trans ((if_pos ⟨rfl, rfl⟩).trans ?_)
    exact congrArg _ (congrArg _ (quadAt_toOctets 0x61 serial.isLt _))
  · refine (readEngine_checked (check_of_ended _)).trans ((if_neg fun done => ?_).trans ((if_pos ⟨rfl, rfl⟩).trans ?_))
    · exact absurd (show (0x62 : Nat) = 0x61 from done.1) (by decide)
    · exact congrArg _ (congrArg _ (quadAt_toOctets 0x62 serial.isLt _))
  · exact readEngine_of_type (fun done => notDone done.1) fun failed => notFailed failed.1
  · exact readEngine_of_type (fun both => length both.2) fun failed => absurd (done.symm.trans failed.1) (by decide)
  · exact readEngine_of_type (fun done => absurd (failed.symm.trans done.1) (by decide)) fun both => length both.2

end Sys2Proof.Machine
end

section
/-! The releases and FRANK REPORTS the controller composes (R18, R25, R27, R28). -/

set_option Elab.async false

namespace Sys2Proof.Machine

/-! ## Fields of a body after its front -/

/-- An octet beyond the front. -/
theorem octetAt_append (front rest : List Byte) (k : Nat) : octetAt (front ++ rest) (front.length + k) = octetAt rest k := by
  unfold octetAt
  rw [List.getD_append_right _ _ _ _ (Nat.le_add_right _ _), Nat.add_sub_cancel_left]

/-- A pair of octets beyond the front. -/
theorem pairAt_append (front rest : List Byte) (k : Nat) : pairAt (front ++ rest) (front.length + k) = pairAt rest k := by
  unfold pairAt
  rw [octetAt_append, Nat.add_assoc, octetAt_append]

/-- A measure block beyond the front. -/
theorem measureAt_append (front rest : List Byte) : measureAt (front ++ rest) front.length = measureAt rest 0 := by
  have first := pairAt_append front rest 0
  rw [Nat.add_zero] at first
  simp only [measureAt, octetAt_append, pairAt_append, first, Nat.zero_add]

/-- A half octet beyond the front. -/
theorem halfAt_append (front rest : List Byte) (k n : Nat) :
    halfAt (front ++ rest) (front.length + k) n = halfAt rest k n := by
  unfold halfAt
  rw [Nat.add_assoc, octetAt_append]

/-- An address block beyond the front. -/
theorem addressAt_append (front rest : List Byte) : addressAt (front ++ rest) front.length = addressAt rest 0 := by
  have first := octetAt_append front rest 0
  rw [Nat.add_zero] at first
  have halves : halfAt (front ++ rest) (front.length + 3) = halfAt rest (0 + 3) := funext fun n => halfAt_append front rest 3 n
  simp only [addressAt, octetAt_append, first, halves, Nat.zero_add]

/-! ## Blocks read back (R18) -/

/-- An octet, read as a number. -/
theorem octetAt_eq (octets : List Byte) (i : Nat) : octetAt octets i = ofOctets [octets.getD i 0] := by
  simp [octetAt, ofOctets]

/-- A pair of octets, read as a number. -/
theorem pairAt_eq (octets : List Byte) (i : Nat) : pairAt octets i = ofOctets [octets.getD i 0, octets.getD (i + 1) 0] := by
  simp [pairAt, octetAt, ofOctets]

/-- The quality of a code. -/
theorem qualityOf_code (q : WeightQuality) : qualityOf (qualityCode q) = some q := by
  cases q <;> rfl

/-- A measure block whose fields are in range is read back. -/
theorem measureAt_block {m : MeasurePart} (back : List Byte) (weight : m.weight ≤ 65535) (length : m.length ≤ 1023)
    (height : m.height ≤ 1023) (thickness : m.thickness ≤ 255) : measureAt (measureBlock m ++ back) 0 = some m := by
  have quality : qualityCode m.quality < 256 ^ 1 := by cases m.quality <;> decide
  have dims : (if m.dimsValid then 1 else 0) < 256 ^ 1 := by split <;> decide
  have weightField : pairAt (measureBlock m ++ back) 0 = m.weight :=
    (pairAt_eq _ 0).trans (ofOctets_toOctets_of_lt (n := 2) (by omega))
  have qualityField : octetAt (measureBlock m ++ back) (0 + 2) = qualityCode m.quality :=
    (octetAt_eq _ 2).trans (ofOctets_toOctets_of_lt (n := 1) quality)
  have lengthField : pairAt (measureBlock m ++ back) (0 + 3) = m.length :=
    (pairAt_eq _ 3).trans (ofOctets_toOctets_of_lt (n := 2) (by omega))
  have heightField : pairAt (measureBlock m ++ back) (0 + 5) = m.height :=
    (pairAt_eq _ 5).trans (ofOctets_toOctets_of_lt (n := 2) (by omega))
  have thicknessField : octetAt (measureBlock m ++ back) (0 + 7) = m.thickness :=
    (octetAt_eq _ 7).trans (ofOctets_toOctets_of_lt (n := 1) (by omega))
  have dimsField : octetAt (measureBlock m ++ back) (0 + 8) = if m.dimsValid then 1 else 0 :=
    (octetAt_eq _ 8).trans (ofOctets_toOctets_of_lt (n := 1) dims)
  unfold measureAt
  rw [weightField, qualityField, lengthField, heightField, thicknessField, dimsField, qualityOf_code]
  dsimp only
  rw [if_pos ⟨length, height, by split <;> decide⟩]
  cases valid : m.dimsValid <;> simp [← valid]

/-- The halves of an octet that holds two digits. -/
theorem halves_of_octet {a b : Nat} (high : a ≤ 15) (low : b ≤ 15) (rest : List Byte) :
    halfAt (BitVec.ofNat 8 (a * 16 + b) :: rest) 0 0 = a ∧ halfAt (BitVec.ofNat 8 (a * 16 + b) :: rest) 0 1 = b := by
  have octet : octetAt (BitVec.ofNat 8 (a * 16 + b) :: rest) 0 = a * 16 + b := toNat_octet (by omega)
  unfold halfAt
  constructor
  · rw [if_pos rfl]
    show octetAt _ 0 / 16 = a
    omega
  · rw [if_neg (by decide)]
    show octetAt _ 0 % 16 = b
    omega

/-- The halves past the first octet. -/
theorem halfAt_cons (x : Byte) (rest : List Byte) (n : Nat) : halfAt (x :: rest) 0 (n + 2) = halfAt rest 0 n := by
  have shift := halfAt_append [x] rest 0 n
  unfold halfAt at shift ⊢
  rw [← shift, Nat.add_mod_right]
  simp only [List.length_singleton, List.singleton_append, Nat.zero_add, Nat.add_div_right n (by decide : 0 < 2),
    Nat.add_comm 1]

/-- The halves of packed digits: the digits, then the pad value of an odd last half. -/
theorem halfAt_packDigits (digits : List Nat) (low : ∀ d ∈ digits, d ≤ 9) (n : Nat) :
    (∀ inside : n < digits.length, halfAt (packDigits digits) 0 n = digits[n]) ∧
      (n = digits.length → n % 2 = 1 → halfAt (packDigits digits) 0 n = 15) := by
  induction digits using packDigits.induct generalizing n with
  | case1 => exact ⟨fun inside => absurd inside (Nat.not_lt_zero n), fun last odd => by simp [last] at odd⟩
  | case2 a =>
    have digit := low a List.mem_cons_self
    obtain ⟨first, second⟩ := halves_of_octet (a := a) (b := 15) (by omega) le_rfl []
    match n with
    | 0 => exact ⟨fun _ => first, nofun⟩
    | 1 => exact ⟨fun inside => absurd inside (by simp), fun _ _ => second⟩
    | n + 2 => exact ⟨fun inside => absurd inside (by simp), fun last => absurd last (by simp)⟩
  | case3 a b rest ih =>
    have digitA := low a List.mem_cons_self
    have digitB := low b (List.mem_cons_of_mem _ List.mem_cons_self)
    obtain ⟨first, second⟩ := halves_of_octet (a := a) (b := b) (by omega) (by omega) (packDigits rest)
    match n with
    | 0 => exact ⟨fun _ => first, nofun⟩
    | 1 => exact ⟨fun _ => second, fun last => by simp at last⟩
    | n + 2 =>
      obtain ⟨inside, last⟩ := ih (fun d mem => low d (List.mem_cons_of_mem _ (List.mem_cons_of_mem _ mem))) n
      rw [packDigits, halfAt_cons]
      refine ⟨fun below => ?_, fun ends odd => last (by simpa using ends) (by omega)⟩
      rw [inside (by simpa using below)]
      rfl

/-- The octets of packed digits. -/
theorem packDigits_length (digits : List Nat) : (packDigits digits).length = digitOctets digits.length := by
  unfold digitOctets
  induction digits using packDigits.induct with
  | case1 => rfl
  | case2 a => simp [packDigits]
  | case3 a b rest ih =>
    rw [packDigits, List.length_cons, ih, List.length_cons, List.length_cons]
    omega

/-- An address block whose fields are in range is read back. -/
theorem addressAt_block {a : AddressPart} (serviceClass : a.serviceClass ≤ 31) (level : a.level ≤ 3)
    (count : a.digits.length ≤ 8) (low : ∀ d ∈ a.digits, d ≤ 9) : addressAt (addressBlock a) 0 = some a := by
  have classField : octetAt (addressBlock a) 0 = a.serviceClass :=
    (octetAt_eq _ 0).trans (ofOctets_toOctets_of_lt (n := 1) (by omega))
  have levelField : octetAt (addressBlock a) (0 + 1) = a.level :=
    (octetAt_eq _ 1).trans (ofOctets_toOctets_of_lt (n := 1) (by omega))
  have countField : octetAt (addressBlock a) (0 + 2) = a.digits.length :=
    (octetAt_eq _ 2).trans (ofOctets_toOctets_of_lt (n := 1) (by omega))
  have halves : ∀ n, halfAt (addressBlock a) (0 + 3) n = halfAt (packDigits a.digits) 0 n := fun n =>
    halfAt_append (toOctets 1 a.serviceClass ++ toOctets 1 a.level ++ toOctets 1 a.digits.length) (packDigits a.digits) 0 n
  have digits : (List.range a.digits.length).map (halfAt (addressBlock a) (0 + 3)) = a.digits := by
    refine List.ext_getElem (by simp) fun n _ inside => ?_
    rw [List.getElem_map, List.getElem_range, halves]
    exact (halfAt_packDigits a.digits low n).1 inside
  unfold addressAt
  simp only [classField, levelField, countField, digits]
  refine if_pos ⟨serviceClass, level, count, by simpa using low, ?_⟩
  rcases Nat.mod_two_eq_zero_or_one a.digits.length with even | odd
  · exact .inl even
  · exact .inr ((halves _).trans ((halfAt_packDigits a.digits low _).2 rfl odd))

/-! ## Releases (R27) -/

/-- The front of a release: the piece, the job, no take station, the station, and the content flags. -/
def releaseFront (piece : PieceNo) (job station flags : Nat) : List Byte :=
  toOctets 2 piece.toNat ++ toOctets 1 job ++ toOctets 1 0 ++ toOctets 1 station ++ toOctets 1 flags

/-- The measure block of a release. -/
def releaseMeasure (m : Option MeasurePart) : List Byte :=
  match m with
  | some p => measureBlock p
  | none => []

/-- The address block of a release. -/
def releaseAddress (a : Option AddressPart) : List Byte :=
  match a with
  | some p => addressBlock p
  | none => []

/-- A release is its front and its blocks. -/
theorem releaseBody_eq (p : PieceNo) (job station : Nat) (m : Option MeasurePart) (a : Option AddressPart) :
    releaseBody p job station m a = releaseFront p job station (contentFlags m a) ++ releaseMeasure m ++ releaseAddress a := by
  cases m <;> cases a <;> rfl

/-- The front, octet by octet. -/
theorem releaseFront_eq (p : PieceNo) (job station flags : Nat) : releaseFront p job station flags =
    [BitVec.ofNat 8 (p.toNat / 256), BitVec.ofNat 8 p.toNat, BitVec.ofNat 8 job, BitVec.ofNat 8 0, BitVec.ofNat 8 station,
      BitVec.ofNat 8 flags] := by
  unfold releaseFront
  rw [toOctets_two, toOctets_one, toOctets_one, toOctets_one, toOctets_one]
  rfl

/-- A piece number in two octets. -/
theorem pieceAt_octets (p : PieceNo) (rest : List Byte) :
    pieceAt (BitVec.ofNat 8 (p.toNat / 256) :: BitVec.ofNat 8 p.toNat :: rest) = p := by
  refine BitVec.eq_of_toNat_eq ?_
  simp [pieceAt, pairAt, octetAt]
  omega

/-- The fields of a release's front, whatever follows it. -/
theorem releaseFront_fields (p : PieceNo) {job station flags : Nat} (jobFits : job ≤ 255) (stationFits : station ≤ 255)
    (flagsFit : flags ≤ 255) (rest : List Byte) :
    let body := releaseFront p job station flags ++ rest
    pieceAt body = p ∧ octetAt body 2 = job ∧ octetAt body 3 = 0 ∧ octetAt body 4 = station ∧ octetAt body 5 = flags := by
  rw [releaseFront_eq]
  exact ⟨pieceAt_octets p _, toNat_octet (by omega), rfl, toNat_octet (by omega), toNat_octet (by omega)⟩

/-- The content flags say which blocks there are. -/
theorem contentFlags_spec (m : Option MeasurePart) (a : Option AddressPart) : contentFlags m a ≤ 3 ∧
    (contentFlags m a % 2 = 1 ↔ m.isSome) ∧ (2 ≤ contentFlags m a ↔ a.isSome) ∧
    (contentFlags m a = 0 → m = none ∧ a = none) := by
  cases m <;> cases a <;> simp [contentFlags]

/-- The octets of a measure block are those the flags promise. -/
theorem releaseMeasure_length (m : Option MeasurePart) (a : Option AddressPart) :
    (releaseMeasure m).length = measureOctets (contentFlags m a) := by
  cases m <;> cases a <;> simp [releaseMeasure, measureBlock, toOctets_length, measureOctets, contentFlags]

/-- A notice body whose fields pass the tests of R19, with the station's own number as the releaser. -/
theorem readNotice_good {origin : Nat} {body : List Byte} {m : Option MeasurePart} {a : Option AddressPart}
    (flags : octetAt body 5 = contentFlags m a) (long : 6 ≤ body.length) (length : body.length = noticeLength body)
    (job : octetAt body 2 ≠ 0) (take : octetAt body 3 = 0) (station : octetAt body 4 = origin) (low : 1 ≤ origin)
    (high : origin ≤ 30) (measure : m.isSome → measureAt body 6 = m)
    (address : a.isSome → addressAt body (6 + measureOctets (contentFlags m a)) = a) :
    readNotice origin body = some (.notice { piece := pieceAt body, job := octetAt body 2, takeStation := 0, releasedBy := origin,
                                             measure := m, address := a }) := by
  obtain ⟨three, hasMeasure, hasAddress, -⟩ := contentFlags_spec m a
  have measureRead : (if contentFlags m a % 2 = 1 then measureAt body 6 else none) = m := by
    cases m with
    | none => exact if_neg (by simp [hasMeasure])
    | some x => exact (if_pos (hasMeasure.mpr rfl)).trans (measure rfl)
  have addressRead : (if 2 ≤ contentFlags m a then addressAt body (6 + measureOctets (contentFlags m a)) else none) = a := by
    cases a with
    | none => exact if_neg (by simp [hasAddress])
    | some x => exact (if_pos (hasAddress.mpr rfl)).trans (address rfl)
  unfold readNotice
  dsimp only
  rw [flags, station, take, measureRead, addressRead, if_neg (by omega), if_neg (by omega), if_neg (by simp), if_neg (by omega),
    if_neg]
  rw [hasMeasure, hasAddress]
  rintro (⟨some, none⟩ | ⟨some, none⟩) <;> simp [none] at some

/-- A release composed from fields in range is read back. -/
theorem readNotice_releaseBody (p : PieceNo) {job station : Nat} {m : Option MeasurePart} {a : Option AddressPart}
    (low : 1 ≤ station) (high : station ≤ 30) (jobLow : 1 ≤ job) (jobHigh : job ≤ 255)
    (measure : ∀ x, m = some x → x.weight ≤ 65535 ∧ x.length ≤ 1023 ∧ x.height ≤ 1023 ∧ x.thickness ≤ 255)
    (address : ∀ x, a = some x → x.serviceClass ≤ 31 ∧ x.level ≤ 3 ∧ x.digits.length ≤ 8 ∧ ∀ d ∈ x.digits, d ≤ 9) :
    readNotice station (releaseBody p job station m a) =
      some (.notice { piece := p, job := job, takeStation := 0, releasedBy := station, measure := m, address := a }) := by
  obtain ⟨three, hasMeasure, hasAddress, -⟩ := contentFlags_spec m a
  have parts := releaseBody_eq p job station m a
  have measureLength := releaseMeasure_length m a
  have front : (releaseFront p job station (contentFlags m a)).length = 6 := by rw [releaseFront_eq]; rfl
  have frontTwo : (releaseFront p job station (contentFlags m a) ++ releaseMeasure m).length = 6 + measureOctets (contentFlags m a) := by
    rw [List.length_append, front, measureLength]
  obtain ⟨pieceField, jobField, takeField, stationField, flagsField⟩ := releaseFront_fields p (job := job) (station := station)
    (flags := contentFlags m a) jobHigh (by omega) (by omega) (releaseMeasure m ++ releaseAddress a)
  rw [← List.append_assoc, ← parts] at pieceField jobField takeField stationField flagsField
  have length : (releaseBody p job station m a).length = noticeLength (releaseBody p job station m a) := by
    unfold noticeLength
    dsimp only
    rw [flagsField, parts, List.length_append, frontTwo]
    congr 1
    cases a with
    | none => exact (if_neg (by simp [hasAddress])).symm
    | some x =>
      obtain ⟨-, -, count, -⟩ := address x rfl
      have countField : octetAt (addressBlock x) 2 = x.digits.length :=
        (octetAt_eq _ 2).trans (ofOctets_toOctets_of_lt (n := 1) (by omega))
      rw [if_pos (hasAddress.mpr rfl), ← frontTwo, octetAt_append]
      show (addressBlock x).length = 3 + digitOctets (octetAt (addressBlock x) 2)
      rw [countField]
      simp [addressBlock, toOctets_length, packDigits_length]
      omega
  have read := readNotice_good flagsField (by rw [parts, List.length_append, frontTwo]; omega) length (by omega) takeField stationField
    low high (fun some => ?_) (fun some => ?_)
  · rw [read, pieceField, jobField]
  · obtain ⟨x, rfl⟩ := Option.isSome_iff_exists.mp some
    obtain ⟨weight, length, height, thickness⟩ := measure x rfl
    rw [parts, List.append_assoc, ← front, measureAt_append]
    exact measureAt_block _ weight length height thickness
  · obtain ⟨x, rfl⟩ := Option.isSome_iff_exists.mp some
    obtain ⟨serviceClass, level, count, digits⟩ := address x rfl
    rw [parts, ← frontTwo, addressAt_append]
    exact addressAt_block serviceClass level count digits

/-! ## FRANK REPORTS (R25, R28) -/

/-- The reading of a frame of a known kind with an origin in range. -/
theorem reading_of_kind {f : Frame} {k : FrameKind} (kind : kindOf f.kind = some k) (low : 1 ≤ f.origin.toNat)
    (high : f.origin.toNat ≤ 30) : f.reading = match readBody k f.origin.toNat f.body with
      | none => .malformed
      | some m => .good m := by
  unfold Frame.reading
  rw [kind]
  exact if_neg (by omega)

/-- The kind of a code. -/
theorem kindOf_kindCode (k : FrameKind) : kindOf (kindCode k) = some k := by
  cases k <;> rfl

/-- The fields of a FRANK REPORT, octet by octet. -/
theorem frankBody_eq (p : PieceNo) (cause : FrankCause) (value serial : Nat) : frankBody p cause value serial =
    [BitVec.ofNat 8 (p.toNat / 256), BitVec.ofNat 8 p.toNat, BitVec.ofNat 8 (outcomeCode cause), BitVec.ofNat 8 (reasonCode cause)] ++
      toOctets 4 value ++ toOctets 4 serial := by
  unfold frankBody
  rw [toOctets_two, toOctets_one, toOctets_one]
  rfl

/-- A FRANK REPORT composed by the table of R28 passes the tests of R25. -/
theorem readFrank_frankBody (p : PieceNo) (cause : FrankCause) {value serial : Nat} (serialHigh : serial ≤ 4294967295)
    (valueHigh : value ≤ 4294967295) (franked : cause = .franked → 1 ≤ value) (unfranked : cause ≠ .franked → value = 0)
    (hasSerial : cause = .franked ∨ outcomeCode cause = 2 → 1 ≤ serial)
    (noSerial : cause = .pathBusy ∨ cause = .ratingLate → serial = 0) :
    readFrank (frankBody p cause value serial) = some .forwardedOnly := by
  have length : (frankBody p cause value serial).length = 12 := by simp [frankBody, toOctets_length]
  have outcome : octetAt (frankBody p cause value serial) 2 = outcomeCode cause := by
    cases cause <;> rfl
  have reason : octetAt (frankBody p cause value serial) 3 = reasonCode cause := by
    cases cause <;> rfl
  have valueField : quadAt (frankBody p cause value serial) 4 = value :=
    (quadAt_eq _ 4).trans (ofOctets_toOctets_of_lt (n := 4) (by omega))
  have serialField : quadAt (frankBody p cause value serial) 8 = serial :=
    (quadAt_eq _ 8).trans (ofOctets_toOctets_of_lt (n := 4) (by omega))
  unfold readFrank
  rw [length, outcome, reason, valueField, serialField]
  refine if_neg ?_
  rw [not_or, Bool.not_eq_false]
  refine ⟨by decide, ?_⟩
  cases cause <;> simp_all [frankFieldsGood, outcomeCode, reasonCode] <;> omega

/-- Settles O17: the release by its blocks, the report by its fields. -/
theorem composedFramesAreGood : Obligations.ComposedFramesAreGood := by
  unfold Obligations.ComposedFramesAreGood
  refine ⟨fun station job hop p m a low high jobLow jobHigh measure address => ?_, fun p value serial => ?_,
    fun station hop p cause value serial low high serialHigh valueHigh franked unfranked hasSerial noSerial => ?_⟩
  · have origin : (BitVec.ofNat 8 station).toNat = station := toNat_octet (by omega)
    rw [reading_of_kind (kindOf_kindCode .pieceNotice) (by simpa [origin] using low) (by simpa [origin] using high)]
    simp only [readBody, origin, readNotice_releaseBody p low high jobLow jobHigh measure address]
  · simp only [frankBody_eq, ← toOctets_four]
    exact ⟨rfl, rfl, rfl, rfl, rfl, rfl, rfl⟩
  · have origin : (BitVec.ofNat 8 station).toNat = station := toNat_octet (by omega)
    rw [reading_of_kind (kindOf_kindCode .frankReport) (by simpa [origin] using low) (by simpa [origin] using high)]
    simp only [readBody, readFrank_frankBody p cause serialHigh valueHigh franked unfranked hasSerial noSerial]

end Sys2Proof.Machine
end

section
/-! The outgoing link: frames given and sent, and what a retirement does (R9, R10, R43, R49, R77). -/

set_option Elab.async false

namespace Sys2Proof.Machine

/-! ## A frame given (R9) -/

/-- The arbiter's choice, as a state. -/
theorem arbitrate_of_loop (s : State) : arbitrate s = { s with loop := { s.loop with
    transmitter :=
      if s.loop.relay = .through ∧ s.loop.switching = none ∧ s.loop.transmitter = .idle then
        nextTransmitter s.loop.forward s.loop.own
      else s.loop.transmitter } } := by
  conv_lhs => rw [arbitrate_eq, arbitrate_loop]

/-- Settles O14: the three cases of `giveFrame`, the last by the arbiter's choice. -/
theorem frameGiven : Obligations.FrameGiven := by
  unfold Obligations.FrameGiven
  refine fun kind body s => ⟨giveFrame_aside kind body s, fun attached full => ?_, fun attached room => ?_⟩
  · exact (if_pos attached).trans (if_neg (by omega))
  · exact ((if_pos attached).trans (if_pos room)).trans (arbitrate_of_loop _)

/-! ## A frame sent (R6, R9, R10) -/

/-- Settles O32: the frame leaves its queue, and the arbiter chooses with the transmitter at rest. -/
theorem framesSent : Obligations.FramesSent := by
  unfold Obligations.FramesSent
  intro s on through still
  have chooses : ∀ t : State, t.loop.relay = .through → t.loop.switching = none → t.loop.transmitter = .idle →
      arbitrate t = { t with loop := { t.loop with transmitter := nextTransmitter t.loop.forward t.loop.own } } :=
    fun t relay switching idle => by rw [arbitrate_of_loop, if_pos ⟨relay, switching, idle⟩]
  refine ⟨fun e rest sending queue => exec_answers on ?_, fun f rest sending queue => exec_answers on ?_⟩
  · simp only [effect, forwardSent, sending, queue]
    exact chooses _ through still rfl
  · simp only [effect, ownSent, sending, queue]
    exact chooses _ through still rfl

/-! ## A retirement (R43, R49, R77) -/

/-- A record leaves the table of a sound tracker, told by its tag or by its piece number. -/
theorem filter_tag_eq_filter_piece {t : Tracker} {r : PieceRecord} (sound : t.Sound) (mem : r ∈ t.pieces) :
    t.pieces.filter (fun x => x.tag != r.tag) = t.pieces.filter (fun x => x.piece != r.piece) :=
  List.filter_congr fun x memX => by
    rw [Bool.eq_iff_iff, bne_iff_ne, bne_iff_ne]
    exact not_congr (tag_eq_iff_piece_eq sound memX mem)

/-- The table is one shorter when a record has left it. -/
theorem length_removed {t : Tracker} {r : PieceRecord} (sound : t.Sound) (mem : r ∈ t.pieces) :
    (t.pieces.filter (fun x => x.tag != r.tag)).length + 1 = t.pieces.length := by
  have count := countP_remove (fun _ => true) t.pieces r sound.1 mem
  simpa [List.countP_true] using count

/-- The feed-hold flag is cleared by a retirement: the count has fallen to the resume level with the flag set (R43). -/
abbrev State.resumes (s : State) : Prop :=
  s.port.config.isSome = true ∧ s.tracker.pieces.length = s.conf.resumeLevel ∧ s.intake.feedHold = true

/-- The configuration is that of the record. -/
theorem conf_of_config {s t : State} (config : t.port.config = s.port.config) : t.conf = s.conf := by
  unfold State.conf
  rw [config]

/-- A retirement that resumes the feed gives its two frames in either order (R9, R77). -/
theorem giveAtRetirement_resumes {s : State} (kind : FrameKind) (body : List Byte) (resumes : s.resumes) :
    let t := { s with intake := { s.intake with feedHold := false }, freeCount := s.freeCount + 1 }
    let resume := giveFrame .feedResume (feedBody s.tracker.pieces.length)
    giveAtRetirement kind body s = giveFrame kind body (resume t) ∨ giveAtRetirement kind body s = resume (giveFrame kind body t) := by
  obtain ⟨config, level, held⟩ := resumes
  unfold giveAtRetirement
  rw [if_pos ⟨config, level, held⟩]
  dsimp only
  split
  · exact .inl rfl
  · exact .inr rfl

/-- A retirement that does not resume the feed gives its own frame. -/
theorem giveAtRetirement_plain {s : State} (kind : FrameKind) (body : List Byte) (plain : ¬s.resumes) :
    giveAtRetirement kind body s = giveFrame kind body s :=
  if_neg plain

/-- The Intake Unit and the Loop Port after the frames of a retirement. -/
theorem giveAtRetirement_effects (kind : FrameKind) (body : List Byte) (s : State) :
    (giveAtRetirement kind body s).intake =
      { s.intake with feedHold := if s.resumes then false else s.intake.feedHold } ∧
    (s.loop.attach ≠ .attached → (giveAtRetirement kind body s).loop = s.loop) ∧
    (s.loop.attach = .attached → ¬s.resumes → s.loop.own.length < 8 →
      (giveAtRetirement kind body s).loop.own = s.loop.own ++ [ownFrame s kind body]) ∧
    (s.loop.attach = .attached → s.resumes → s.loop.own.length < 7 →
      (giveAtRetirement kind body s).loop.own =
        s.loop.own ++ [ownFrame s kind body, ownFrame s .feedResume (feedBody s.tracker.pieces.length)] ∨
      (giveAtRetirement kind body s).loop.own =
        s.loop.own ++ [ownFrame s .feedResume (feedBody s.tracker.pieces.length), ownFrame s kind body]) := by
  by_cases resumes : s.resumes
  · let t := { s with intake := { s.intake with feedHold := false }, freeCount := s.freeCount + 1 }
    have both : ∀ k b k' b', (giveFrame k b (giveFrame k' b' t)).intake = t.intake ∧
        (s.loop.attach ≠ .attached → (giveFrame k b (giveFrame k' b' t)).loop = s.loop) ∧
        (s.loop.attach = .attached → s.loop.own.length < 7 → (giveFrame k b (giveFrame k' b' t)).loop.own =
          s.loop.own ++ [ownFrame s k' b', ownFrame s k b]) := fun k b k' b' => by
      refine ⟨by simp, fun aside => ?_, fun attached room => ?_⟩
      · rw [giveFrame_aside k' b' t aside, giveFrame_aside k b t aside]
      · have frame : ownFrame (giveFrame k' b' t) k b = ownFrame s k b := by
          unfold ownFrame
          rw [conf_of_config (s := s) (by simp [t])]
        have own : (giveFrame k' b' t).loop.own = s.loop.own ++ [ownFrame s k' b'] := by
          rw [giveFrame_own, if_pos ⟨attached, by show s.loop.own.length < 8; omega⟩]
          rfl
        rw [giveFrame_own, own, if_pos ⟨by simpa using attached, by simp; omega⟩, frame, List.append_assoc]
        rfl
    rw [if_pos resumes]
    rcases giveAtRetirement_resumes kind body resumes with order | order <;> rw [order]
    · obtain ⟨intake, aside, own⟩ := both kind body .feedResume (feedBody s.tracker.pieces.length)
      exact ⟨intake, aside, fun _ plain => absurd resumes plain, fun attached _ room => .inr (own attached room)⟩
    · obtain ⟨intake, aside, own⟩ := both .feedResume (feedBody s.tracker.pieces.length) kind body
      exact ⟨intake, aside, fun _ plain => absurd resumes plain, fun attached _ room => .inl (own attached room)⟩
  · rw [giveAtRetirement_plain kind body resumes, if_neg resumes]
    refine ⟨by simp, fun away => congrArg _ (giveFrame_aside kind body s away), fun attached _ room => ?_, fun _ holds => absurd holds resumes⟩
    rw [giveFrame_own, if_pos ⟨attached, room⟩]

/-- The head mode after a retirement, and QUIET_REACHED (R49). -/
theorem retire_settles {r : PieceRecord} {s : State} (kind : FrameKind) (body : List Byte) (sound : s.tracker.Sound)
    (mem : r ∈ s.tracker.pieces) :
    (retire r kind body s).mode = (if s.mode = .quiescing ∧ s.tracker.pieces.length = 1 then .quiet else s.mode) ∧
    (s.mode = .quiescing → s.tracker.pieces.length = 1 → .quietReached ∈ (retire r kind body s).port.events) := by
  have length := length_removed sound mem
  have empty : s.tracker.pieces.filter (fun x => x.tag != r.tag) = [] ↔ s.tracker.pieces.length = 1 := by
    rw [← List.length_eq_zero_iff]
    omega
  unfold retire settleQuiet
  simp only [giveAtRetirement_keeps, removeRecord_keeps, removeRecord_pieces, empty]
  split
  next settles => exact ⟨rfl, fun _ _ => mem_addEvent _ _⟩
  next other => exact ⟨by simp, fun quiescing one => absurd ⟨quiescing, one⟩ other⟩

/-- A slot when one of its bindings is released (R94). -/
theorem released_cases (b : BankSlot) :
    (b.state ≠ .retiring ∨ 2 ≤ b.bound → b.released = { b with bound := b.bound - 1 }) ∧
    (b.state = .retiring → b.bound = 1 → b.released = { state := .empty, content := none, generation := 0, bound := 0 }) := by
  unfold BankSlot.released
  refine ⟨fun stays => if_neg ?_, fun retiring one => if_pos ⟨retiring, by omega⟩⟩
  rintro ⟨retiring, last⟩
  rcases stays with other | bound
  · exact other retiring
  · omega

/-- Settles O15: the table and the slot by `removeRecord`, the frames and the flag by `giveAtRetirement_effects`, the mode by
`retire_settles`. -/
theorem retirementEffects : Obligations.RetirementEffects := by
  unfold Obligations.RetirementEffects
  intro r kind body s sound mem
  have length := length_removed sound mem
  obtain ⟨mode, quiet⟩ := retire_settles kind body sound mem
  obtain ⟨intake, aside, plain, both⟩ := giveAtRetirement_effects kind body (removeRecord r s)
  have given : (retire r kind body s).intake = (giveAtRetirement kind body (removeRecord r s)).intake ∧
      (retire r kind body s).loop = (giveAtRetirement kind body (removeRecord r s)).loop := by simp [retire]
  have pieces : (retire r kind body s).tracker.pieces.length = (removeRecord r s).tracker.pieces.length := by simp
  refine ⟨?_, ?_, by simp, ⟨?_, ?_, ?_, ?_⟩, mode, quiet, by simp, by simp, by simp, by simp, by simp, by simp, released_cases⟩
  · rw [← filter_tag_eq_filter_piece sound mem]
    simp [retire, removeRecord, releaseBinding]
  · simpa using length
  · rw [given.1, intake, pieces]
    rfl
  · exact fun away => given.2.trans (aside away)
  · exact fun attached notResumes room => by
      rw [given.2]
      exact plain attached (by rwa [pieces] at notResumes) room
  · intro attached resumes room
    rw [given.2]
    rw [pieces] at resumes
    have level : feedBody (removeRecord r s).tracker.pieces.length = toOctets 1 s.conf.resumeLevel := by
      rw [resumes.2.1]
      rfl
    have either := both attached resumes room
    rw [level] at either
    exact either

end Sys2Proof.Machine
end

section
/-! Symbols and frames on loop-in up to the first tests (R2 to R5, R8, R14). -/

set_option Elab.async false

namespace Sys2Proof.Machine

/-- A saturating count is the lesser of the count and its limit. -/
theorem saturate_eq_min (limit n : Nat) : saturate limit n = min limit n := by
  unfold saturate
  split <;> omega

/-! ## Symbols (R2) -/

/-- The state once a symbol is recognised: the receiver is left as given, and as many frames are counted bad as given. -/
def State.heard (s : State) (sym : Symbol) (r : Receiver) (bad : Nat) : State :=
  { s with loop := { s.loop with
      receiver := r
      badFrames := min 65535 (s.loop.badFrames + bad)
      lost := false
      idleRun := if sym = .idle then min 255 (s.loop.idleRun + 1) else 0 } }

/-- A symbol recognised, and the receiver's next state. -/
theorem seeSymbol_receiver {s : State} (counted : s.loop.badFrames ≤ 65535) (sym : Symbol) (r : Receiver) :
    { seeSymbol sym s with loop := { (seeSymbol sym s).loop with receiver := r } } = s.heard sym r 0 := by
  have bad : min 65535 (s.loop.badFrames + 0) = s.loop.badFrames := by omega
  unfold State.heard
  rw [bad]
  cases sym with
  | idle => simp only [seeSymbol, saturate_eq_min, if_true]
  | opener | closer | cut | octet => simp only [seeSymbol, reduceCtorEq, if_false]

/-- A frame counted bad at a symbol. -/
theorem countBad_heard (s : State) (counted : s.loop.badFrames ≤ 65535) (sym : Symbol) (r : Receiver) :
    countBad (s.heard sym r 0) = s.heard sym r 1 := by
  have bad : saturate 65535 (min 65535 (s.loop.badFrames + 0) + 1) = min 65535 (s.loop.badFrames + 1) := by
    rw [saturate_eq_min]
    omega
  unfold countBad State.heard
  dsimp only
  rw [bad]

/-- A symbol at a receiver that listens, by the receiver's step. -/
theorem receiveSymbol_step {s : State} (still : s.loop.switching = none) (counted : s.loop.badFrames ≤ 65535) {sym : Symbol}
    {r : Receiver} :
    (receiveStep 46 s.loop.receiver sym = (r, .nothing) → receiveSymbol sym s = s.heard sym r 0) ∧
    (receiveStep 46 s.loop.receiver sym = (r, .abandoned) → receiveSymbol sym s = s.heard sym r 1) ∧
    ∀ octets, receiveStep 46 s.loop.receiver sym = (r, .completed octets) →
      receiveSymbol sym s = completeOctets octets (s.heard sym r 0) := by
  have listens : s.deaf = false := by simp [State.deaf, still]
  unfold receiveSymbol
  simp only [listens, Bool.false_eq_true, if_false]
  refine ⟨fun step => ?_, fun step => ?_, fun octets step => ?_⟩ <;> rw [step] <;> dsimp only <;> rw [seeSymbol_receiver counted]
  exact countBad_heard s counted sym r

/-- The commands of a symbol. -/
theorem effect_symbol {c : Instr} {sym : Symbol} (row : c = .idleReceived sym ∨ c = .loopReturn sym) (s : State) :
    effect c s = receiveSymbol sym s := by
  rcases row with rfl | rfl <;> rfl

/-- Settles O33: each symbol by the receiver's step, the two other commands by their tests. -/
theorem symbolsReceived : Obligations.SymbolsReceived := by
  unfold Obligations.SymbolsReceived
  intro s on still
  have listens : s.deaf = false := by simp [State.deaf, still]
  refine ⟨?_, fun why counted => exec_answers on ?_, fun found => exec_answers on (if_neg (by simp [listens, found])),
    fun lost => exec_answers on (if_pos (.inr lost))⟩
  · intro c sym row seen counted
    have symbol : ∀ {t}, receiveSymbol sym s = t → exec c s = .next t := fun acts => exec_answers on ((effect_symbol row s).trans acts)
    have steps := @receiveSymbol_step s still counted sym
    refine ⟨fun outside other => symbol ((steps).1 ?_), fun fresh opens => symbol ((steps).1 ?_), fun buffer receiving => ?_,
      fun ignoring => ?_⟩
    · rw [outside]
      cases sym with
      | opener => exact absurd rfl other
      | idle | closer | cut | octet => rfl
    · rcases fresh with fresh | fresh <;> rw [fresh, opens] <;> rfl
    · have step : ∀ next, receiveStep 46 (.receiving buffer) sym = next → receiveStep 46 s.loop.receiver sym = next :=
        fun next is => receiving ▸ is
      have completes := (steps (r := .outside)).2.2 buffer
      refine ⟨fun opens => symbol (steps.2.1 (step _ ?_)), fun ends => symbol (steps.2.1 (step _ ?_)),
        fun b octet room => symbol (steps.1 (step _ ?_)), fun b octet full => symbol (steps.2.1 (step _ ?_)),
        fun closes bad => symbol ((completes (step _ ?_)).trans ?_),
        fun closes good => symbol ((completes (step _ ?_)).trans ?_)⟩
      · rw [opens]
        rfl
      · rcases ends with rfl | rfl <;> rfl
      · rw [octet]
        exact if_pos room
      · rw [octet]
        exact if_neg (by omega)
      · rw [closes]
        rfl
      · exact (if_pos bad).trans (countBad_heard s counted sym _)
      · rw [closes]
        rfl
      · exact if_neg (by simp [good])
    · have step : ∀ next, receiveStep 46 .ignoring sym = next → receiveStep 46 s.loop.receiver sym = next :=
        fun next is => ignoring ▸ is
      refine ⟨fun b octet => symbol (steps.1 (step _ ?_)), fun ends => symbol (steps.1 (step _ ?_))⟩
      · rw [octet]
        rfl
      · rcases ends with rfl | rfl | rfl <;> rfl
  · refine (if_neg (by simp [listens])).trans ?_
    unfold countBad
    rw [saturate_eq_min]
    cases why <;> rfl

/-! ## Frames (R2, R3, R5, R8) -/

/-- The command of a frame row receives its frame. -/
theorem effect_lineFrame {c : Instr} {f : Frame} (row : lineFrameOf c = some f) (s : State) : effect c s = receiveFrame f s := by
  cases c with
  | unknownKindFrame | pieceNotice | releasedNotice | measureReport | addressReport | jobOpen | jobClose | rateSwitch | feedHold
  | feedResume | frankReport | verifyReport =>
    obtain rfl := Option.some.inj row
    rfl
  | _ => cases row

/-- The tests of R3 spelled out. -/
theorem badOctets_iff (octets : List Byte) :
    let octet := fun (i : Nat) => octets.getD i 0
    let check := lineCheck (octets.take (octets.length - 2))
    badOctets octets = true ↔ octets.length < 6 ∨ 40 < (octet 3).toNat ∨ octets.length ≠ (octet 3).toNat + 6 ∨
      (octet 2).toNat = 0 ∨ 32 < (octet 2).toNat ∨
      octets.drop (octets.length - 2) ≠ [BitVec.ofNat 8 (check.toNat / 256), BitVec.ofNat 8 check.toNat] := by
  intro octet check
  have register : [BitVec.ofNat 8 (check.toNat / 256), BitVec.ofNat 8 check.toNat] = registerOctets check :=
    (registerOctets_eq check).symm
  have three : octetAt octets 3 = (octet 3).toNat := rfl
  have two : octetAt octets 2 = (octet 2).toNat := rfl
  rw [register]
  simp only [badOctets, Bool.or_eq_true, decide_eq_true_eq, three, two, or_assoc]
  by_cases length : octets.length = (octet 3).toNat + 6
  · have place : (octet 3).toNat + 4 = octets.length - 2 := by omega
    rw [place, ne_comm (a := octets.drop _)]
  · simp only [ne_eq, length, not_false_eq_true, true_or, or_true]

/-- The receiver listens, whatever it holds. -/
theorem receiveFrame_heard {s : State} (still : s.loop.switching = none) (f : Frame) : receiveFrame f s =
    if f.bad then countBad (endReception f.octets s) else dispose f (endReception f.octets s) :=
  if_neg (by simp [State.deaf, still])

/-- The state once a whole frame is heard outside a frame: as many frames are counted bad as given (R2). -/
def State.quieted (s : State) (bad : Nat) : State :=
  { s with loop := { s.loop with
      receiver := .outside, idleRun := 0, lost := false, badFrames := min 65535 (s.loop.badFrames + bad) } }

/-- Reception of a frame heard outside a frame (R2). -/
theorem endReception_outside {s : State} (outside : s.loop.receiver = .outside) (counted : s.loop.badFrames ≤ 65535)
    (octets : List Byte) : endReception octets s = s.quieted 0 := by
  have bad : min 65535 (s.loop.badFrames + 0) = s.loop.badFrames := by omega
  unfold endReception State.quieted
  rw [outside, bad]

/-- A bad frame is counted (R4). -/
theorem countBad_quieted (s : State) (counted : s.loop.badFrames ≤ 65535) : countBad (s.quieted 0) = s.quieted 1 := by
  have bad : saturate 65535 (min 65535 (s.loop.badFrames + 0) + 1) = min 65535 (s.loop.badFrames + 1) := by
    rw [saturate_eq_min]
    omega
  unfold countBad State.quieted
  dsimp only
  rw [bad]

/-- A frame that arrives while the rest of an over-long one is ignored is heard as outside a frame (R2). -/
theorem endReception_ignoring {s : State} (ignoring : s.loop.receiver = .ignoring) (octets : List Byte) :
    endReception octets s = endReception octets { s with loop := { s.loop with receiver := .outside } } := by
  unfold endReception
  rw [ignoring]

/-- A frame that arrives over the beginning of another counts that one, if it is no beginning of its own (R2; log 4). -/
theorem endReception_receiving {s : State} {buffer : List Byte} (receiving : s.loop.receiver = .receiving buffer)
    (octets : List Byte) : endReception octets s = endReception octets { s with loop := { s.loop with
      receiver := .outside
      badFrames := if buffer.isPrefixOf octets then s.loop.badFrames else min 65535 (s.loop.badFrames + 1) } } := by
  unfold endReception
  rw [receiving]
  dsimp only
  split
  · rfl
  · unfold countBad
    rw [saturate_eq_min]

/-- What a good frame past R3 is disposed of as: its own station's and one out of hops vanish, one without a place is dropped. -/
theorem dispose_first (f : Frame) (s : State) :
    (s.isOwn f.origin.toNat = true → dispose f s = s) ∧
    (s.isOwn f.origin.toNat = false → f.hop.toNat = 1 → dispose f s = s) ∧
    (s.isOwn f.origin.toNat = false → f.hop.toNat ≠ 1 → s.inRing = true → 4 ≤ s.loop.forward.length →
      dispose f s = raise .frameDrop s) := by
  unfold dispose disposeInRing disposeAside
  refine ⟨fun own => ?_, fun other last => ?_, fun other hops ring full => ?_⟩
  · rw [if_pos own, if_pos own, ite_self]
  · have notOwn : ¬s.isOwn f.origin.toNat = true := by simp [other]
    rw [if_neg notOwn, if_neg notOwn, if_pos last, if_pos last, ite_self]
  · rw [if_pos ring, if_neg (by simp [other]), if_neg hops, if_neg (by omega)]

/-- Settles O34: the octets by `badOctets_iff`, the first tests in their order. -/
theorem firstTestsOfAFrame : Obligations.FirstTestsOfAFrame := by
  unfold Obligations.FirstTestsOfAFrame
  refine ⟨fun octets => ⟨badOctets_iff octets, rfl⟩, ⟨rfl, checkOver_append _ _⟩, fun f => by simp [Frame.bad, or_assoc],
    fun s => ⟨by simp [State.inRing], fun station => ?_⟩, fun s on still counted => ⟨fun outside octets bad => exec_answers on ?_,
      fun c f row => ⟨fun outside => ?_, fun ignoring => ?_, fun buffer receiving => ?_⟩⟩⟩
  · unfold State.isOwn
    cases s.port.config <;> simp
  · refine (if_neg (by simp [State.deaf, still])).trans ((if_pos bad).trans ?_)
    rw [endReception_outside outside counted]
    exact countBad_quieted s counted
  · have heard := receiveFrame_heard still f
    rw [endReception_outside outside counted] at heard
    have answers : ∀ {t}, receiveFrame f s = t → exec c s = .next t := fun acts => exec_answers on ((effect_lineFrame row s).trans acts)
    have disposed : f.bad = false → receiveFrame f s = dispose f (s.quieted 0) := fun good => heard.trans (if_neg (by simp [good]))
    obtain ⟨own, last, full⟩ := dispose_first f (s.quieted 0)
    exact ⟨fun bad => answers (heard.trans ((if_pos bad).trans (countBad_quieted s counted))),
      fun good isOwn => answers ((disposed good).trans (own isOwn)),
      fun good other hops => answers ((disposed good).trans (last other hops)),
      fun good other hops ring none => answers ((disposed good).trans (full other hops ring none))⟩
  · rw [exec_on on, exec_on (by exact on), effect_lineFrame row, effect_lineFrame row, receiveFrame_heard still,
      receiveFrame_heard (by exact still), endReception_ignoring ignoring]
  · rw [exec_on on, exec_on (by exact on), effect_lineFrame row, effect_lineFrame row, receiveFrame_heard still,
      receiveFrame_heard (by exact still), endReception_receiving receiving]

end Sys2Proof.Machine
end

section
/-! What a frame's body spells, kind by kind (R17 to R26). -/

set_option Elab.async false

namespace Sys2Proof.Machine

/-- What is read of a body: a message where the body is good, and nothing where it is not. -/
def Spells (read : Option α) (good : Prop) (m : α) : Prop :=
  (good → read = some m) ∧ (¬good → read = none)

/-- A reading by one test. -/
theorem spells_if {α : Type} {bad good : Prop} [Decidable bad] (test : bad ↔ ¬good) (m : α) :
    Spells (if bad then none else some m) good m :=
  ⟨fun holds => if_neg fun fails => test.mp fails holds, fun fails => if_pos (test.mpr fails)⟩

/-- A reading by one test that must hold. -/
theorem spells_if_some {α : Type} {test good : Prop} [Decidable test] (holds : test ↔ good) (m : α) :
    Spells (if test then some m else none) good m :=
  ⟨fun good => if_pos (holds.mpr good), fun fails => if_neg fun passes => fails (holds.mp passes)⟩

/-- A reading in which a part is read. -/
theorem Spells.map {α β : Type} {read : Option α} {good : Prop} {m : α} (h : Spells read good m) (g : α → β) :
    Spells (read.map g) good (g m) :=
  ⟨fun holds => by rw [h.1 holds]; rfl, fun fails => by rw [h.2 fails]; rfl⟩

/-- A reading in which a part is read after a test. -/
theorem Spells.after {α : Type} {read : Option α} {test good both : Prop} [Decidable test] {m : α} (h : Spells read good m)
    (all : both ↔ ¬test ∧ good) : Spells (if test then none else read) both m := by
  refine ⟨fun holds => ?_, fun fails => ?_⟩
  · obtain ⟨past, good⟩ := all.mp holds
    exact (if_neg past).trans (h.1 good)
  · split
    · rfl
    · next past => exact h.2 fun good => fails (all.mpr ⟨past, good⟩)

/-- A frame of a known kind with an origin in range is what its body spells. -/
theorem judged_of_spells {f : Frame} {k : FrameKind} {good : Prop} {m : LineMessage} (kind : f.kind = kindCode k)
    (low : 1 ≤ f.origin.toNat) (high : f.origin.toNat ≤ 30) (h : Spells (readBody k f.origin.toNat f.body) good m) :
    (good → f.reading = .good m) ∧ (¬good → f.reading = .malformed) := by
  have reading := reading_of_kind (f := f) (kind ▸ kindOf_kindCode k) low high
  exact ⟨fun holds => by rw [reading, h.1 holds], fun fails => by rw [reading, h.2 fails]⟩

/-! ## Blocks (R18) -/

/-- A measure block at an offset. -/
theorem measureAt_spells (body : List Byte) (i : Nat) : Spells (measureAt body i)
    (1 ≤ octetAt body (i + 2) ∧ octetAt body (i + 2) ≤ 3 ∧ pairAt body (i + 3) ≤ 1023 ∧ pairAt body (i + 5) ≤ 1023 ∧
      octetAt body (i + 8) ≤ 1)
    { weight := pairAt body i
      quality := if octetAt body (i + 2) = 1 then .settled else if octetAt body (i + 2) = 2 then .unsettled else .failed
      length := pairAt body (i + 3), height := pairAt body (i + 5), thickness := octetAt body (i + 7),
      dimsValid := decide (octetAt body (i + 8) = 1) } := by
  have quality : ∀ q : Nat, Spells (qualityOf q) (1 ≤ q ∧ q ≤ 3) (if q = 1 then .settled else if q = 2 then .unsettled else .failed)
    | 0 | 1 | 2 | 3 => by simp [Spells, qualityOf]
    | q + 4 => ⟨fun range => absurd range.2 (by omega), fun _ => rfl⟩
  obtain ⟨known, unknown⟩ := quality (octetAt body (i + 2))
  unfold measureAt
  refine ⟨fun ⟨low, high, fields⟩ => ?_, fun fails => ?_⟩
  · rw [known ⟨low, high⟩]
    exact if_pos fields
  · by_cases range : 1 ≤ octetAt body (i + 2) ∧ octetAt body (i + 2) ≤ 3
    · rw [known range]
      exact if_neg fun fields => fails ⟨range.1, range.2, fields⟩
    · rw [unknown range]

/-- An address block at an offset. -/
theorem addressAt_spells (body : List Byte) (i : Nat) : Spells (addressAt body i)
    (octetAt body i ≤ 31 ∧ octetAt body (i + 1) ≤ 3 ∧ octetAt body (i + 2) ≤ 8 ∧
      (∀ k, k < octetAt body (i + 2) → halfAt body (i + 3) k ≤ 9) ∧
      (octetAt body (i + 2) % 2 = 1 → halfAt body (i + 3) (octetAt body (i + 2)) = 15))
    { serviceClass := octetAt body i, level := octetAt body (i + 1),
      digits := (List.range (octetAt body (i + 2))).map (halfAt body (i + 3)) } := by
  have digits : ((List.range (octetAt body (i + 2))).map (halfAt body (i + 3))).all (fun d => decide (d ≤ 9)) = true ↔
      ∀ k, k < octetAt body (i + 2) → halfAt body (i + 3) k ≤ 9 := by simp
  have pad : (octetAt body (i + 2) % 2 = 0 ∨ halfAt body (i + 3) (octetAt body (i + 2)) = 15) ↔
      (octetAt body (i + 2) % 2 = 1 → halfAt body (i + 3) (octetAt body (i + 2)) = 15) := by
    rw [← Nat.mod_two_ne_zero, ← or_iff_not_imp_left]
  exact spells_if_some (and_congr_right fun _ => and_congr_right fun _ => and_congr_right fun _ => and_congr digits pad) _

/-! ## Bodies (R19 to R26) -/

/-- The content of a released notice's blocks is read only where the flags promise it. -/
theorem spells_promised {α : Type} {read : Option α} {good flag : Prop} [Decidable flag] {x : α} (h : Spells read good x) :
    (flag ∧ (if flag then read else none) = none ↔ ¬(flag → good)) ∧
      ((flag → good) → (if flag then read else none) = if flag then some x else none) := by
  by_cases promised : flag
  · simp only [promised, if_true, true_and, forall_const]
    by_cases holds : good
    · simp [h.1 holds, holds]
    · simp [h.2 holds, holds]
  · simp [promised]

/-- The octets a notice's flags and digit count require, as the statement counts them. -/
theorem noticeLength_eq (body : List Byte) : noticeLength body =
    6 + (if octetAt body 5 % 2 = 1 then 9 else 0) + (if 2 ≤ octetAt body 5 then
      3 + (octetAt body ((if octetAt body 5 % 2 = 1 then 15 else 6) + 2) + 1) / 2 else 0) := by
  unfold noticeLength measureOctets digitOctets
  dsimp only
  split <;> rfl

/-- The place of a notice's address block. -/
theorem addressPlace_eq (flags : Nat) : 6 + measureOctets flags = if flags % 2 = 1 then 15 else 6 := by
  unfold measureOctets
  split <;> rfl

/-- A PIECE NOTICE body (R19). -/
theorem readNotice_spells (origin : Nat) (body : List Byte) {goodM goodA : Prop} {measure : MeasurePart} {address : AddressPart}
    (readM : Spells (measureAt body 6) goodM measure)
    (readA : Spells (addressAt body (if octetAt body 5 % 2 = 1 then 15 else 6)) goodA address) :
    Spells (readNotice origin body)
      (6 ≤ body.length ∧ octetAt body 5 ≤ 3 ∧ body.length = noticeLength body ∧ octetAt body 2 ≠ 0 ∧ octetAt body 3 ≤ 30 ∧
        octetAt body 4 ≤ 30 ∧ (octetAt body 4 ≠ 0 → octetAt body 4 = origin) ∧ (octetAt body 4 = 0 → octetAt body 5 = 0) ∧
        (octetAt body 5 % 2 = 1 → goodM) ∧ (2 ≤ octetAt body 5 → goodA))
      (.notice { piece := pieceAt body, job := octetAt body 2, takeStation := octetAt body 3, releasedBy := octetAt body 4,
                 measure := if octetAt body 5 % 2 = 1 then some measure else none,
                 address := if 2 ≤ octetAt body 5 then some address else none }) := by
  obtain ⟨lacksM, givesM⟩ := spells_promised (flag := octetAt body 5 % 2 = 1) readM
  obtain ⟨lacksA, givesA⟩ := spells_promised (flag := 2 ≤ octetAt body 5) readA
  unfold readNotice
  dsimp only
  rw [addressPlace_eq]
  refine Spells.after (good := octetAt body 2 ≠ 0 ∧ octetAt body 3 ≤ 30 ∧ octetAt body 4 ≤ 30 ∧
    (octetAt body 4 ≠ 0 → octetAt body 4 = origin) ∧ (octetAt body 4 = 0 → octetAt body 5 = 0) ∧
    (octetAt body 5 % 2 = 1 → goodM) ∧ (2 ≤ octetAt body 5 → goodA)) ?_ (by simp only [not_or, not_lt, not_not, and_assoc])
  refine Spells.after (good := (octetAt body 4 ≠ 0 → octetAt body 4 = origin) ∧ (octetAt body 4 = 0 → octetAt body 5 = 0) ∧
    (octetAt body 5 % 2 = 1 → goodM) ∧ (2 ≤ octetAt body 5 → goodA)) ?_ (by simp only [not_or, not_lt, and_assoc, ne_eq])
  refine Spells.after (good := (octetAt body 4 = 0 → octetAt body 5 = 0) ∧
    (octetAt body 5 % 2 = 1 → goodM) ∧ (2 ≤ octetAt body 5 → goodA)) ?_ (by simp only [not_and, not_not, ne_eq])
  refine Spells.after (good := (octetAt body 5 % 2 = 1 → goodM) ∧ (2 ≤ octetAt body 5 → goodA)) ?_
    (by simp only [not_and, not_not, ne_eq])
  refine ⟨fun ⟨holdsM, holdsA⟩ => ?_, fun fails => if_pos ?_⟩
  · rw [if_neg, givesM holdsM, givesA holdsA]
    rw [lacksM, lacksA, not_or, not_not, not_not]
    exact ⟨holdsM, holdsA⟩
  · rw [lacksM, lacksA]
    exact not_and_or.mp fails

/-- A verdict octet (R26). -/
theorem verdictOf_spells (n : Nat) : Spells (verdictOf n) (1 ≤ n ∧ n ≤ 4)
    (if n = 1 then .good else if n = 2 then .unreadable else if n = 3 then .valueMismatch else .notSeen) :=
  match n with
  | 0 | 1 | 2 | 3 | 4 => by simp [Spells, verdictOf]
  | n + 5 => ⟨fun range => absurd range.2 (by omega), fun _ => rfl⟩

/-- The fields of a FRANK REPORT in range (R25). -/
theorem frankFieldsGood_iff (outcome reason value serial : Nat) : frankFieldsGood outcome reason value serial = true ↔
    outcome = 1 ∧ reason = 0 ∧ value ≠ 0 ∧ serial ≠ 0 ∨
      outcome = 2 ∧ (reason = 1 ∨ reason = 2 ∨ reason = 3) ∧ value = 0 ∧ serial ≠ 0 ∨
      outcome = 3 ∧ (reason = 4 ∨ reason = 5) ∧ value = 0 ∧ serial = 0 ∨ outcome = 3 ∧ reason = 6 ∧ value = 0 := by
  unfold frankFieldsGood
  split
  next one => simp [one]
  next notOne =>
    split
    next two =>
      rw [decide_eq_true_iff]
      omega
    next notTwo =>
      split
      next three =>
        rw [decide_eq_true_iff]
        omega
      next notThree => simp [notOne, notTwo, notThree]

/-- A frame of none of the ten codes. -/
theorem reading_of_unknown {f : Frame} (unknown : f.kind ∉ allKinds.map kindCode) : f.reading = .unknownKind := by
  have none : kindOf f.kind = none := List.find?_eq_none.mpr fun k mem same =>
    unknown (List.mem_map.mpr ⟨k, mem, by simpa using same⟩)
  unfold Frame.reading
  rw [none]

/-- A frame of one of the ten codes whose origin is not 1 to 30. -/
theorem reading_of_origin {f : Frame} (known : f.kind ∈ allKinds.map kindCode) (bad : f.origin.toNat = 0 ∨ 30 < f.origin.toNat) :
    f.reading = .malformed := by
  obtain ⟨k, -, kind⟩ := List.mem_map.mp known
  unfold Frame.reading
  rw [← kind, kindOf_kindCode]
  exact if_pos bad

end Sys2Proof.Machine
end

section
/-! Frames past the first tests: forwarded in the ring, and handed to their blocks (R5 to R10). -/

set_option Elab.async false

namespace Sys2Proof.Machine

/-! ## Reception leaves the outgoing link -/

/-- A Loop Port that differs from another in what reception changes: the receiver, the IDLE run and the loop-lost flag, and the
bad-frame count. -/
def LoopPort.received (l : LoopPort) (bad : Nat) : LoopPort :=
  { l with receiver := .outside, idleRun := 0, lost := false, badFrames := bad }

/-- The end of reception. -/
theorem endReception_received (octets : List Byte) (s : State) : ∃ bad,
    endReception octets s = { s with loop := s.loop.received bad } ∧ (s.loop.receiver = .outside → bad = s.loop.badFrames) := by
  unfold endReception LoopPort.received
  split
  next receiving =>
    split
    · exact ⟨_, rfl, fun _ => rfl⟩
    · exact ⟨_, rfl, fun outside => by cases receiving.symm.trans outside⟩
  next => exact ⟨_, rfl, fun _ => rfl⟩
  next => exact ⟨_, rfl, fun _ => rfl⟩

/-! ## In the ring (R5 to R7) -/

/-- The forward queue once the waiting notice is released. -/
def releasedEntries (took : Bool) (station : Nat) (forward : List ForwardEntry) : List ForwardEntry :=
  forward.map fun e => if e.held then
    { frame := if took then { e.frame with body := writeTake e.frame.body station } else e.frame, held := false } else e

/-- The transmitter once the arbiter has chosen, for a queue in which a frame waited and then went on. -/
theorem arbiter_after_release {before after : List ForwardEntry} {own : List Frame} (front : ∀ e rest, before = e :: rest →
    ∃ e' rest', after = e' :: rest' ∧ e'.held = false) (waits : before ≠ []) :
    nextTransmitter before own = .idle ∨
      nextTransmitter before own = .sendingForward ∧ nextTransmitter after own = .sendingForward := by
  match before, waits with
  | e :: rest, _ =>
    obtain ⟨e', rest', is, open_⟩ := front e rest rfl
    cases held : e.held
    · exact .inr ⟨by simp [nextTransmitter, held], by simp [is, nextTransmitter, open_]⟩
    · exact .inl (by simp [nextTransmitter, held])

/-- The Loop Port after a notice was decided on in the ring (R7, R10). -/
theorem decideHeld_loop (f : Frame) (n : Notice) (s : State) :
    let d := decideNotice n (enqueueForward f true s)
    let forward := releasedEntries d.2 d.1.conf.station (s.loop.forward ++ [{ frame := f, held := true }])
    (d.2 = false ∨ s.loop.attach ≠ .attached → d.1.loop.own = s.loop.own) ∧
    (arbitrate (decideHeld f n s)).loop = { s.loop with
      forward := forward
      own := d.1.loop.own
      transmitter := if s.loop.relay = .through ∧ s.loop.switching = none ∧ s.loop.transmitter = .idle then
        nextTransmitter forward d.1.loop.own else s.loop.transmitter } := by
  intro d forward
  obtain ⟨same, either⟩ := decideNotice_loop n (enqueueForward f true s)
  refine ⟨fun quiet => (congrArg LoopPort.own (same quiet)).trans rfl, ?_⟩
  have released : (decideHeld f n s).loop = { d.1.loop with
      forward := releasedEntries d.2 d.1.conf.station d.1.loop.forward } := rfl
  rcases either with stays | ⟨own, gives⟩
  · have loop : d.1.loop = (enqueueForward f true s).loop := stays
    rw [arbitrate_loop, released, loop]
    rfl
  · have loop : d.1.loop = _ := gives.trans (arbitrate_loop _)
    have ownIs : d.1.loop.own = own := congrArg LoopPort.own loop
    rw [arbitrate_loop, released, ownIs, loop]
    have goesOn : ∀ e rest, s.loop.forward ++ [{ frame := f, held := true }] = e :: rest →
        ∃ e' rest', forward = e' :: rest' ∧ e'.held = false := fun e rest is => by
      refine ⟨_, _, (congrArg (releasedEntries d.2 d.1.conf.station) is).trans List.map_cons, ?_⟩
      split
      · rfl
      next notHeld => exact Bool.eq_false_iff.mpr notHeld
    have waits := arbiter_after_release (own := own) goesOn (by simp)
    refine congrArg (fun x => { s.loop with forward := forward, own := own, transmitter := x }) ?_
    by_cases free : s.loop.relay = .through ∧ s.loop.switching = none ∧ s.loop.transmitter = .idle
    · obtain ⟨through, still, idle⟩ := free
      have inner : (enqueueForward f true s).loop.forward = s.loop.forward ++ [{ frame := f, held := true }] := rfl
      simp only [inner, enqueueForward_keeps, through, still, idle, and_self, if_true, true_and]
      rcases waits with rests | ⟨sends, sent⟩
      · rw [rests, if_pos rfl]
      · rw [sends, if_neg (by simp)]
        exact sent.symm
    · simp only [enqueueForward_keeps, if_neg free]

/-- A frame that is no notice joins the forward queue, is counted when it is malformed, and is handed on otherwise (R5). -/
theorem forwardAndHand_loop {f : Frame} (notNotice : ∀ n, f.reading ≠ .good (.notice n)) (s : State) :
    (forwardAndHand f s).loop = { s.loop with
      forward := s.loop.forward ++ [{ frame := f, held := false }]
      badFrames := if f.reading = .malformed then min 65535 (s.loop.badFrames + 1) else s.loop.badFrames } := by
  cases reading : f.reading with
  | unknownKind =>
    unfold forwardAndHand
    rw [reading, if_neg (by simp)]
    rfl
  | malformed =>
    unfold forwardAndHand
    rw [reading, if_pos rfl, ← saturate_eq_min]
    rfl
  | good m =>
    have other : ∀ n, m ≠ .notice n := fun n is => notNotice n (is ▸ reading)
    rw [forwardAndHand_good s reading other, hand_loop, if_neg (by simp)]
    rfl

/-- The Loop Port once a frame past the first tests is disposed of in the ring (R5 to R10). -/
theorem ring_loop (f : Frame) (s : State) :
    let t := arbitrate (forwardAndHand f s)
    t.loop = { s.loop with
      forward := t.loop.forward
      own := t.loop.own
      badFrames := if f.reading = .malformed then min 65535 (s.loop.badFrames + 1) else s.loop.badFrames
      transmitter := if s.loop.relay = .through ∧ s.loop.switching = none ∧ s.loop.transmitter = .idle then
        nextTransmitter t.loop.forward t.loop.own else s.loop.transmitter } ∧
    ((∀ n, f.reading ≠ .good (.notice n)) → t.loop.forward = s.loop.forward ++ [{ frame := f, held := false }] ∧
      t.loop.own = s.loop.own) := by
  intro t
  by_cases notice : ∃ n, f.reading = .good (.notice n)
  · obtain ⟨n, reading⟩ := notice
    have decided : forwardAndHand f s = decideHeld f n s := by
      unfold forwardAndHand
      rw [reading]
    refine ⟨?_, fun notNotice => absurd reading (notNotice n)⟩
    have loop := (decideHeld_loop f n s).2
    rw [← decided] at loop
    have wellFormed : ¬f.reading = .malformed := by simp [reading]
    rw [if_neg wellFormed, show t.loop = _ from loop]
  · have notNotice := not_exists.mp notice
    have loop : t.loop = _ := arbitrate_loop (forwardAndHand f s)
    rw [forwardAndHand_loop notNotice] at loop
    rw [loop]
    exact ⟨rfl, fun _ => ⟨rfl, rfl⟩⟩

/-! ## Aside (R8) -/

/-- The Loop Port once a frame past the first tests is disposed of aside (R8). -/
theorem aside_loop {f : Frame} {s : State} (notOwn : s.isOwn f.origin.toNat = false) (hops : f.hop.toNat ≠ 1)
    (away : s.loop.attach ≠ .attached) : (disposeAside f s).loop = { s.loop with
      badFrames := if f.reading = .malformed then min 65535 (s.loop.badFrames + 1) else s.loop.badFrames } := by
  unfold disposeAside
  rw [if_neg (by simp [notOwn]), if_neg hops]
  cases reading : f.reading with
  | unknownKind => rfl
  | malformed => exact congrArg (fun n => { s.loop with badFrames := n }) (saturate_eq_min _ _)
  | good m =>
    cases m with
    | notice n => exact (decideNotice_loop n s).1 (.inr away)
    | measureReport | addressReport | jobOpen | jobClose | rateSwitch | forwardedOnly | verifyReport => exact hand_loop _ s

/-! ## Both (R5, R8) -/

/-- The Loop Port once a frame past the first tests is disposed of. -/
theorem dispose_loop {f : Frame} {s : State} (notOwn : s.isOwn f.origin.toNat = false) (hops : f.hop.toNat ≠ 1)
    (still : s.loop.switching = none) (room : s.inRing = true → s.loop.forward.length < 4) :
    let t := dispose f s
    t.loop = { s.loop with
      forward := t.loop.forward
      own := t.loop.own
      badFrames := if f.reading = .malformed then min 65535 (s.loop.badFrames + 1) else s.loop.badFrames
      transmitter := if s.inRing = true ∧ s.loop.relay = .through ∧ s.loop.transmitter = .idle then
        nextTransmitter t.loop.forward t.loop.own else s.loop.transmitter } ∧
    ((∀ n, f.reading ≠ .good (.notice n)) → t.loop.forward = s.forwardWith f ∧ t.loop.own = s.loop.own) := by
  intro t
  by_cases ring : s.inRing = true
  · have disposed : t = arbitrate (forwardAndHand { f with hop := f.hop - 1 } s) := by
      show dispose f s = _
      unfold dispose disposeInRing
      rw [if_pos ring, if_neg (by simp [notOwn]), if_neg hops, if_pos (room ring)]
    have reading : ({ f with hop := f.hop - 1 } : Frame).reading = f.reading := rfl
    obtain ⟨loop, plain⟩ := ring_loop { f with hop := f.hop - 1 } s
    rw [← disposed, reading] at loop plain
    refine ⟨?_, fun notNotice => ?_⟩
    · simpa only [ring, still, true_and] using loop
    · unfold State.forwardWith
      rw [if_pos ring]
      exact plain notNotice
  · have disposed : t = disposeAside f s := if_neg ring
    have away : s.loop.attach ≠ .attached := fun attached => ring (by simp [State.inRing, attached])
    have loop := aside_loop notOwn hops away
    rw [← disposed] at loop
    have outside : ¬(s.inRing = true ∧ s.loop.relay = .through ∧ s.loop.transmitter = .idle) := fun free => ring free.1
    rw [loop, if_neg outside]
    refine ⟨rfl, fun _ => ⟨?_, rfl⟩⟩
    unfold State.forwardWith
    rw [if_neg ring]

/-- A frame of unknown kind, malformed, or for no block changes the Loop Port alone. -/
theorem dispose_only_loop {f : Frame} {s : State} (notOwn : s.isOwn f.origin.toNat = false) (hops : f.hop.toNat ≠ 1)
    (room : s.inRing = true → s.loop.forward.length < 4)
    (forNone : f.reading = .unknownKind ∨ f.reading = .malformed ∨ f.reading = .good .forwardedOnly) :
    ∃ l, dispose f s = { s with loop := l } := by
  have reading : ({ f with hop := f.hop - 1 } : Frame).reading = f.reading := rfl
  have other : ¬s.isOwn f.origin.toNat = true := by simp [notOwn]
  unfold dispose disposeInRing disposeAside
  rw [if_neg other, if_neg other, if_neg hops, if_neg hops]
  split
  next ring =>
    rw [if_pos (room ring), arbitrate_of_loop]
    unfold forwardAndHand
    rw [reading]
    rcases forNone with is | is | is <;> rw [is] <;> exact ⟨_, rfl⟩
  next => rcases forNone with is | is | is <;> rw [is] <;> exact ⟨_, rfl⟩

/-- A frame row whose frame passes the first tests disposes of it once reception has ended. -/
theorem exec_admitted {c : Instr} {f : Frame} {s : State} (row : lineFrameOf c = some f) (admits : s.Admits f) :
    exec c s = .next (dispose f (endReception f.octets s)) := by
  obtain ⟨on, still, good, -⟩ := admits
  refine exec_answers on ((effect_lineFrame row s).trans ((receiveFrame_heard still f).trans (if_neg ?_)))
  simp [good]

/-- Settles O35: the Loop Port by `dispose_loop`, the readings kind by kind. -/
theorem framesForwarded : Obligations.FramesForwarded := by
  unfold Obligations.FramesForwarded
  refine ⟨fun c f s row admits => ?_, fun f => ?_⟩
  · obtain ⟨bad, ended, same⟩ := endReception_received f.octets s
    refine ⟨_, exec_admitted row admits, ?_⟩
    obtain ⟨-, still, -, notOwn, hops, room⟩ := admits
    rw [ended]
    obtain ⟨loop, plain⟩ := dispose_loop (s := { s with loop := s.loop.received bad }) notOwn hops still room
    refine ⟨plain, fun outside => ?_, fun outside forNone => ?_⟩
    · obtain rfl := same outside
      exact loop
    · obtain ⟨l, only⟩ := dispose_only_loop (s := { s with loop := s.loop.received bad }) notOwn hops room forNone
      rw [only]
  · intro octet pair quad piece judged measureGood measure half packed addressGood address length origin codes
    have readings : ∀ (k : FrameKind) {good : Prop} {m : LineMessage}, 1 ≤ origin → origin ≤ 30 → f.kind = kindCode k →
        Spells (readBody k origin f.body) good m → judged good m := fun k _ _ low high kind spells =>
      judged_of_spells kind low high spells
    refine ⟨fun unknown => reading_of_unknown unknown, fun known bad => reading_of_origin known bad, fun low high =>
      ⟨fun kind => readings .pieceNotice low high kind ?_, fun kind => readings .measureReport low high kind ?_,
        fun kind => readings .addressReport low high kind ?_, fun kind => readings .jobOpen low high kind ?_,
        fun kind => readings .jobClose low high kind ?_, fun kind => readings .rateSwitch low high kind ?_, fun kind => ?_,
        fun kind => readings .frankReport low high kind ?_, fun kind => readings .verifyReport low high kind ?_⟩⟩
    · have spells := readNotice_spells origin f.body (measureAt_spells f.body 6) (addressAt_spells f.body _)
      rw [noticeLength_eq] at spells
      exact spells
    · exact Spells.after ((measureAt_spells f.body 2).map _) (and_congr_left' not_not.symm)
    · refine Spells.after ((addressAt_spells f.body 2).map _) ?_
      rw [not_or, not_lt, not_not, and_assoc]
      rfl
    · exact spells_if (by simp only [not_and_or, not_not, not_le, ne_eq]; rfl) _
    · exact spells_if (by simp only [not_and_or, not_not, ne_eq]; rfl) _
    · exact spells_if (by simp only [ne_eq]; rfl) _
    · have feed : Spells (readFeed f.body) (length = 1 ∧ octet 0 ≤ 8) .forwardedOnly :=
        spells_if (by simp only [not_and_or, not_le, ne_eq]; rfl) _
      rcases kind with kind | kind
      · exact readings .feedHold low high kind feed
      · exact readings .feedResume low high kind feed
    · refine spells_if ?_ _
      rw [not_and_or, ← frankFieldsGood_iff, Bool.not_eq_true]
      rfl
    · refine Spells.after ((verdictOf_spells (octet 3)).map _) ?_
      show length = 4 ∧ 1 ≤ octetAt f.body 2 ∧ octetAt f.body 2 ≤ 30 ∧ 1 ≤ octet 3 ∧ octet 3 ≤ 4 ↔
        ¬(length ≠ 4 ∨ octetAt f.body 2 = 0 ∨ 30 < octetAt f.body 2) ∧ 1 ≤ octet 3 ∧ octet 3 ≤ 4
      omega

end Sys2Proof.Machine
end

section
/-! JOB OPEN and VERIFY REPORT at their blocks, and the waiting spoils (R30, R31, R126, R159 to R162). -/

set_option Elab.async false

namespace Sys2Proof.Machine

/-- A frame row past the first tests hands its message to its block, and otherwise changes the Loop Port alone. -/
theorem exec_handed {c : Instr} {f : Frame} {m : LineMessage} {s : State} (row : lineFrameOf c = some f) (admits : s.Admits f)
    (reading : f.reading = .good m) (notNotice : ∀ n, m ≠ .notice n) :
    ∃ before after, exec c s = .next { hand m { s with loop := before } with loop := after } := by
  obtain ⟨before, after, handed⟩ := receiveFrame_good admits reading notNotice
  exact ⟨before, after, exec_answers admits.1 ((effect_lineFrame row s).trans handed)⟩

/-! ## JOB OPEN (R30, R31) -/

/-- A JOB OPEN changes the Intake Unit and the events alone. -/
theorem openJob_frame (n : Nat) (params : JobParams) (s : State) :
    { openJob n params s with intake := s.intake, port := s.port } = s := by
  unfold openJob reopenJob placeJob
  split
  · split <;> rfl
  · split
    · rfl
    · split <;> rfl

/-- A job has pieces in the table. -/
theorem jobHasPieces_iff (s : State) (n : Nat) : s.jobHasPieces n = true ↔ ∃ r ∈ s.tracker.pieces, r.job = n := by
  simp [State.jobHasPieces]

/-- The record of a job number is rewritten as OPEN with given parameters, and the number rewritten leaves the closing order. -/
def State.jobPut (s : State) (old n : Nat) (params : JobParams) : State :=
  { s with intake := { s.intake with
      jobs := s.intake.jobs.map (fun j => if j.number = old then { number := n, params := params, isOpen := true } else j)
      closing := s.intake.closing.filter (fun k => k != old) } }

/-- A JOB OPEN of a number in the table (R31). -/
theorem openJob_known {n : Nat} (params : JobParams) {s : State} (known : ∃ j ∈ s.intake.jobs, j.number = n) :
    ((∃ r ∈ s.tracker.pieces, r.job = n) → openJob n params s = raise .jobConflict s) ∧
    ((¬∃ r ∈ s.tracker.pieces, r.job = n) → openJob n params s = s.jobPut n n params) := by
  obtain ⟨j, found⟩ := (job?_mem s n).mpr (List.mem_map.mpr known)
  unfold openJob reopenJob
  rw [found]
  exact ⟨fun busy => if_pos ((jobHasPieces_iff s n).mpr busy), fun free => if_neg fun busy => free ((jobHasPieces_iff s n).mp busy)⟩

/-- A JOB OPEN of a number new to the table (R30). -/
theorem openJob_new {n : Nat} {s : State} (new : ¬∃ j ∈ s.intake.jobs, j.number = n) (params : JobParams) :
    openJob n params s = placeJob n params s := by
  unfold openJob
  cases found : s.job? n with
  | none => rfl
  | some j => exact absurd (List.mem_map.mp ((job?_mem s n).mp ⟨j, found⟩)) new

/-- A new job in a full table (R30). -/
theorem placeJob_full {n : Nat} (params : JobParams) {s : State} (full : 4 ≤ s.intake.jobs.length) :
    ((∀ k ∈ s.intake.closing, ∃ r ∈ s.tracker.pieces, r.job = k) → placeJob n params s = raise .jobConflict s) ∧
    ∀ front old back, s.intake.closing = front ++ old :: back → (∀ k ∈ front, ∃ r ∈ s.tracker.pieces, r.job = k) →
      (¬∃ r ∈ s.tracker.pieces, r.job = old) → placeJob n params s = s.jobPut old n params := by
  unfold placeJob
  rw [if_neg (by omega)]
  refine ⟨fun busy => ?_, fun front old back parts busy free => ?_⟩
  · have none : reusableJob s = none := List.find?_eq_none.mpr fun k mem => by
      simpa using (jobHasPieces_iff s k).mpr (busy k mem)
    rw [none]
  · have found : reusableJob s = some old := by
      unfold reusableJob
      rw [parts, List.find?_append, List.find?_eq_none.mpr fun k mem => by simpa using (jobHasPieces_iff s k).mpr (busy k mem)]
      have idle : s.jobHasPieces old = false := Bool.eq_false_iff.mpr fun has => free ((jobHasPieces_iff s old).mp has)
      simp [idle]
    rw [found]
    rfl

/-- Settles O38: the number in the table or new to it, the table full or not. -/
theorem jobOpenHandled : Obligations.JobOpenHandled := by
  unfold Obligations.JobOpenHandled
  intro x n params s admits reading
  obtain ⟨before, after, done⟩ := exec_handed (c := .jobOpen x) rfl admits reading nofun
  let heard : State := { s with loop := before }
  refine ⟨_, done, congrArg (fun t : State => { t with loop := s.loop }) (openJob_frame n params heard), ?_⟩
  intro record put known busy conflict
  show ((known → ¬busy n → (openJob n params heard).intake = put n ∧ (openJob n params heard).port = s.port) ∧ _)
  refine ⟨fun is free => ?_, fun is busy => ?_, fun new room => ?_, fun new full busy => ?_, fun front old back new full parts busy free => ?_⟩
  · rw [(openJob_known (s := heard) params is).2 free]
    exact ⟨rfl, rfl⟩
  · show (openJob n params heard).intake = _ ∧ (openJob n params heard).port = _
    rw [(openJob_known (s := heard) params is).1 busy]
    exact ⟨rfl, rfl⟩
  · show (openJob n params heard).intake = _ ∧ (openJob n params heard).port = _
    rw [openJob_new (s := heard) new, placeJob, if_pos room]
    exact ⟨rfl, rfl⟩
  · show (openJob n params heard).intake = _ ∧ (openJob n params heard).port = _
    rw [openJob_new (s := heard) new, (placeJob_full (s := heard) params full).1 busy]
    exact ⟨rfl, rfl⟩
  · show (openJob n params heard).intake = _ ∧ (openJob n params heard).port = _
    rw [openJob_new (s := heard) new, (placeJob_full (s := heard) params full).2 front old back parts busy free]
    exact ⟨rfl, rfl⟩

/-! ## VERIFY REPORT (R159 to R162) -/

/-- A verdict changes the Verify Unit, the store write queue and the events alone. -/
theorem takeVerdict_frame (p : PieceNo) (station : Nat) (v : VerifyVerdict) (s : State) :
    { takeVerdict p station v s with verify := s.verify, funds := s.funds, port := s.port } = s := by
  unfold takeVerdict matchedVerdict unmatchedVerdict requestVerdict requestUnmatched holdUnmatched
  repeat' split
  all_goals rfl

/-- The newest entry of a piece number (R159). -/
theorem newestFranked_of_split {p : PieceNo} {recent front back : List FrankedEntry} {e : FrankedEntry}
    (parts : recent = front ++ e :: back) (number : e.piece = p) (newest : ∀ y ∈ back, y.piece ≠ p) :
    newestFranked p recent = some e := by
  unfold newestFranked
  rw [parts, List.reverse_append, List.reverse_cons, List.append_assoc, List.find?_append,
    List.find?_eq_none.mpr fun y mem => by simpa using newest y (List.mem_reverse.mp mem)]
  simp [number]

/-- No entry has the piece number. -/
theorem newestFranked_of_absent {p : PieceNo} {recent : List FrankedEntry} (absent : ∀ y ∈ recent, y.piece ≠ p) :
    newestFranked p recent = none :=
  List.find?_eq_none.mpr fun y mem => by simpa using absent y (List.mem_reverse.mp mem)

/-- A verdict for another head (R159). -/
theorem takeVerdict_other {station : Nat} {s : State} (other : s.isOwn station = false) (p : PieceNo) (v : VerifyVerdict) :
    takeVerdict p station v s = s :=
  if_neg (by simp [other])

/-- A verdict that matches an entry (R160). -/
theorem takeVerdict_matched {p : PieceNo} {station : Nat} {e : FrankedEntry} {s : State} (own : s.isOwn station = true)
    (newest : newestFranked p s.verify.recent = some e) (v : VerifyVerdict) : takeVerdict p station v s = matchedVerdict e v s := by
  unfold takeVerdict
  rw [if_pos own, newest]

/-- A verdict that matches no entry (R161). -/
theorem takeVerdict_unmatched {p : PieceNo} {station : Nat} {s : State} (own : s.isOwn station = true)
    (none : newestFranked p s.verify.recent = none) (v : VerifyVerdict) : takeVerdict p station v s = unmatchedVerdict p v s := by
  unfold takeVerdict
  rw [if_pos own, none]

/-- The SPOIL from a verdict, admitted and refused (R126, R162). -/
theorem requestVerdict_cases (e : FrankedEntry) (reason : SpoilReason) (s : State) :
    (s.mode ≠ .halted ∧ s.funds.writes.length < 6 → requestVerdict e reason s =
      enqueueWrite (.spoilVerdict e.piece e.serial e.value e.job reason) (setFranked e.serial .spoiling (some reason) s)) ∧
    (¬(s.mode ≠ .halted ∧ s.funds.writes.length < 6) → requestVerdict e reason s =
      setFranked e.serial .spoilPending (some reason) s) :=
  ⟨fun place => if_pos ((takesOther_iff s).mpr place), fun none => if_neg fun place => none ((takesOther_iff s).mp place)⟩

/-- The SPOIL unmatched, admitted and refused (R126, R162). -/
theorem requestUnmatched_cases (p : PieceNo) (s : State) :
    (s.mode ≠ .halted ∧ s.funds.writes.length < 6 → requestUnmatched p s = enqueueWrite (.spoilUnmatched p) s) ∧
    (¬(s.mode ≠ .halted ∧ s.funds.writes.length < 6) → requestUnmatched p s = { s with verify := { s.verify with unmatched :=
      if s.verify.unmatched.length < 4 then s.verify.unmatched ++ [p] else s.verify.unmatched } }) := by
  refine ⟨fun place => if_pos ((takesOther_iff s).mpr place), fun none => (if_neg fun place => none ((takesOther_iff s).mp place)).trans ?_⟩
  unfold holdUnmatched
  split <;> rfl

/-- A bad verdict has its reason. -/
theorem verdictReason_of_bad {v : VerifyVerdict} (bad : v ≠ .good) : ∃ reason, verdictReason v = some reason := by
  cases v with
  | good => exact absurd rfl bad
  | unreadable | valueMismatch | notSeen => exact ⟨_, rfl⟩

/-- Settles O41: the station, the newest entry, the verdict and the place, in that order. -/
theorem verifyReportHandled : Obligations.VerifyReportHandled := by
  unfold Obligations.VerifyReportHandled
  intro x p station v s admits reading
  obtain ⟨before, after, done⟩ := exec_handed (c := .verifyReport x) rfl admits reading nofun
  let heard : State := { s with loop := before }
  refine ⟨_, done, congrArg (fun t : State => { t with loop := s.loop }) (takeVerdict_frame p station v heard), ?_⟩
  intro place same marked
  have unchanged : takeVerdict p station v heard = heard → (takeVerdict p station v heard).verify = s.verify ∧
      (takeVerdict p station v heard).funds = s.funds ∧ (takeVerdict p station v heard).port = s.port :=
    fun is => by rw [is]; exact ⟨rfl, rfl, rfl⟩
  refine ⟨fun other => unchanged (takeVerdict_other (s := heard) other p v), fun front e back own parts number newest => ?_,
    fun own absent => ?_⟩
  · have matched := takeVerdict_matched (s := heard) own (newestFranked_of_split parts number newest) v
    refine ⟨fun later => unchanged (matched.trans (if_neg later)), fun first good => ?_, fun reason first bad => ?_⟩
    · show (takeVerdict p station v heard).verify = _ ∧ (takeVerdict p station v heard).funds = _ ∧
        (takeVerdict p station v heard).port = _
      rw [matched, good, matchedVerdict, if_pos first]
      exact ⟨rfl, rfl, rfl⟩
    · have asks : takeVerdict p station v heard = requestVerdict e reason heard := by
        rw [matched, matchedVerdict, if_pos first]
        rcases bad with ⟨rfl, rfl⟩ | ⟨rfl, rfl⟩ | ⟨rfl, rfl⟩ <;> rfl
      obtain ⟨admitted, refused⟩ := requestVerdict_cases e reason heard
      refine ⟨fun room => ?_, fun full => ?_⟩
      · show (takeVerdict p station v heard).verify = _ ∧ (takeVerdict p station v heard).port = _ ∧
          (takeVerdict p station v heard).funds = _
        rw [asks, admitted room]
        exact ⟨rfl, rfl, rfl⟩
      · show (takeVerdict p station v heard).verify = _ ∧ (takeVerdict p station v heard).funds = _ ∧
          (takeVerdict p station v heard).port = _
        rw [asks, refused full]
        exact ⟨rfl, rfl, rfl⟩
  · have alone := takeVerdict_unmatched (s := heard) own (newestFranked_of_absent absent) v
    refine ⟨fun good => unchanged (by rw [alone, good]; rfl), fun bad => ?_⟩
    obtain ⟨reason, is⟩ := verdictReason_of_bad bad
    have asks : takeVerdict p station v heard = requestUnmatched p (raise .verifyUnmatched heard) := by
      rw [alone, unmatchedVerdict, is]
    obtain ⟨admitted, refused⟩ := requestUnmatched_cases p (raise .verifyUnmatched heard)
    have port : (requestUnmatched p (raise .verifyUnmatched heard)).port = (raise .verifyUnmatched s).port := by
      simp only [requestUnmatched_keeps]
      rfl
    refine ⟨(congrArg State.port asks).trans port, fun room => ?_, fun full => ?_⟩
    · show (takeVerdict p station v heard).verify = _ ∧ (takeVerdict p station v heard).funds = _
      rw [asks, admitted room]
      exact ⟨rfl, rfl⟩
    · show (takeVerdict p station v heard).funds = _ ∧ (takeVerdict p station v heard).verify = _
      rw [asks, refused full]
      exact ⟨rfl, rfl⟩

/-! ## The waiting spoils asked for again (R126, R162) -/

/-- What one request leaves behind: the writes queued stay in front, the numbers asked for leave the front of the unmatched list, the
entries keep their fields but state and reason, and no other block changes. -/
structure AskedAgain (s t : State) : Prop where
  writes : ∃ more, t.funds.writes = s.funds.writes ++ more
  unmatched : ∃ asked, s.verify.unmatched = asked ++ t.verify.unmatched
  entries : t.verify.recent.map (fun e => (e.piece, e.serial, e.value, e.job)) =
    s.verify.recent.map (fun e => (e.piece, e.serial, e.value, e.job))
  frame : { t with verify := s.verify, funds := { t.funds with writes := s.funds.writes } } = s

/-- Nothing is asked for. -/
theorem AskedAgain.refl (s : State) : AskedAgain s s where
  writes := ⟨[], (List.append_nil _).symm⟩
  unmatched := ⟨[], rfl⟩
  entries := rfl
  frame := rfl

/-- One request after another. -/
theorem AskedAgain.trans {s t u : State} (h : AskedAgain s t) (k : AskedAgain t u) : AskedAgain s u where
  writes := by
    obtain ⟨first, isFirst⟩ := h.writes
    obtain ⟨second, isSecond⟩ := k.writes
    exact ⟨first ++ second, by rw [isSecond, isFirst, List.append_assoc]⟩
  unmatched := by
    obtain ⟨first, isFirst⟩ := h.unmatched
    obtain ⟨second, isSecond⟩ := k.unmatched
    exact ⟨first ++ second, by rw [isFirst, isSecond, List.append_assoc]⟩
  entries := k.entries.trans h.entries
  frame := by
    have inner := congrArg (fun x : State => { x with verify := s.verify, funds := { x.funds with writes := s.funds.writes } }) k.frame
    exact inner.trans h.frame

/-- An entry's state and reason are set, and a write joins the queue. -/
theorem askedAgain_entry (serial : Nat) (state : VerifyState) (reason : Option SpoilReason) (w : StoreWrite) (s : State) :
    AskedAgain s (enqueueWrite w (setFranked serial state reason s)) where
  writes := ⟨[w], rfl⟩
  unmatched := ⟨[], rfl⟩
  entries := by
    show (s.verify.recent.map _).map _ = _
    rw [List.map_map]
    refine List.map_congr_left fun e _ => ?_
    simp only [Function.comp]
    split <;> rfl
  frame := rfl

/-- The oldest SPOIL_PENDING entry is asked for (R162). -/
theorem retryOne_entry {s : State} {e : FrankedEntry} (place : s.mode ≠ .halted ∧ s.funds.writes.length < 6)
    (oldest : s.verify.recent.find? (fun x => x.state == .spoilPending) = some e) :
    retryOne s = some (enqueueWrite (.spoilVerdict e.piece e.serial e.value e.job (e.reason.getD .unreadable))
      (setFranked e.serial .spoiling (some (e.reason.getD .unreadable)) s)) := by
  unfold retryOne
  rw [if_pos ((takesOther_iff s).mpr place), oldest]
  exact congrArg _ ((requestVerdict_cases e _ s).1 place)

/-- With no such entry the oldest number of the unmatched list is asked for (R162). -/
theorem retryOne_number {s : State} {p : PieceNo} {rest : List PieceNo} (place : s.mode ≠ .halted ∧ s.funds.writes.length < 6)
    (none : ∀ e ∈ s.verify.recent, e.state ≠ .spoilPending) (waiting : s.verify.unmatched = p :: rest) :
    retryOne s = some (enqueueWrite (.spoilUnmatched p) { s with verify := { s.verify with unmatched := rest } }) := by
  unfold retryOne
  rw [if_pos ((takesOther_iff s).mpr place), List.find?_eq_none.mpr fun e mem => by simpa using none e mem, waiting]

/-- With nothing waiting nothing is asked for. -/
theorem retryOne_idle {s : State} (none : ∀ e ∈ s.verify.recent, e.state ≠ .spoilPending) (empty : s.verify.unmatched = []) :
    retryOne s = .none := by
  unfold retryOne
  rw [List.find?_eq_none.mpr fun e mem => by simpa using none e mem, empty]
  exact ite_self _

/-- One request, by what it asks for. -/
theorem retryOne_asked {s t : State} (asks : retryOne s = some t) : AskedAgain s t := by
  have place := (takesOther_iff s).mp (retryOne_adds s t asks).1
  cases oldest : s.verify.recent.find? (fun x => x.state == .spoilPending) with
  | some e =>
    obtain rfl := Option.some.inj ((retryOne_entry place oldest).symm.trans asks)
    exact askedAgain_entry _ _ _ _ s
  | none =>
    have none : ∀ e ∈ s.verify.recent, e.state ≠ .spoilPending := fun e mem => by
      simpa using List.find?_eq_none.mp oldest e mem
    match waiting : s.verify.unmatched with
    | [] => cases (retryOne_idle none waiting).symm.trans asks
    | p :: rest =>
      obtain rfl := Option.some.inj ((retryOne_number place none waiting).symm.trans asks)
      exact ⟨⟨[_], rfl⟩, ⟨[p], waiting⟩, rfl, rfl⟩

/-- When nothing more is asked for, no place is open or nothing waits. -/
theorem nothing_asked {s : State} (done : retryOne s = none) : ¬(s.mode ≠ .halted ∧ s.funds.writes.length < 6) ∨
    (∀ e ∈ s.verify.recent, e.state ≠ .spoilPending) ∧ s.verify.unmatched = [] := by
  refine or_iff_not_imp_left.mpr fun place => ?_
  have place := not_not.mp place
  cases oldest : s.verify.recent.find? (fun x => x.state == .spoilPending) with
  | some e => cases (retryOne_entry place oldest).symm.trans done
  | none =>
    have none : ∀ e ∈ s.verify.recent, e.state ≠ .spoilPending := fun e mem => by
      simpa using List.find?_eq_none.mp oldest e mem
    match waiting : s.verify.unmatched with
    | [] => exact ⟨none, rfl⟩
    | p :: rest => cases (retryOne_number place none waiting).symm.trans done

/-- A place that is not open is not asked for. -/
theorem retryOne_closed {s : State} (closed : ¬(s.mode ≠ .halted ∧ s.funds.writes.length < 6)) : retryOne s = none :=
  if_neg fun place => closed ((takesOther_iff s).mp place)

/-- Settles O28: each turn by what it asks for, the whole notice by induction over its turns. -/
theorem waitingSpoilsAskedAgain : Obligations.WaitingSpoilsAskedAgain := by
  unfold Obligations.WaitingSpoilsAskedAgain
  intro s
  have asked : AskedAgain s (placeNotice s) :=
    placeNotice_induction AskedAgain (fun s _ => .refl s) (fun s t u asks rest => (retryOne_asked asks).trans rest) s
  refine ⟨fun closed => placeNotice_end s (retryOne_closed ?_), fun on room => ?_, asked.writes, asked.unmatched, asked.entries,
    asked.frame⟩
  · rintro ⟨on, room⟩
    rcases closed with halted | full
    · exact on halted
    · omega
  · refine ⟨fun e oldest => placeNotice_step _ _ (retryOne_entry ⟨on, room⟩ oldest),
      fun p rest none waiting => placeNotice_step _ _ (retryOne_number ⟨on, room⟩ none waiting),
      fun none empty => placeNotice_end s (retryOne_idle none empty), ?_⟩
    have mode : (placeNotice s).mode = s.mode := by simp
    rcases nothing_asked (placeNotice_done s) with closed | idle
    · refine .inl ?_
      rw [mode] at closed
      by_contra short
      exact closed ⟨on, by omega⟩
    · exact .inr idle

end Sys2Proof.Machine
end

section
/-! A PIECE NOTICE at the Intake Unit, in the ring and aside (R7, R8, R33 to R42). -/

set_option Elab.async false

namespace Sys2Proof.Machine

/-! ## A notice in the ring and aside (R7, R8) -/

/-- The forward queue after a notice: in the ring it goes on released, its take field rewritten on a take (R7). -/
def State.forwardNotice (s : State) (f : Frame) (took : Bool) : List ForwardEntry :=
  if s.inRing then s.loop.forward ++ [{
    frame := if took then { f with hop := f.hop - 1, body := writeTake f.body s.conf.station } else { f with hop := f.hop - 1 }
    held := false }]
  else s.loop.forward

/-- What the decision on a notice leaves: its effect on the state, with the Loop Port as reception left it before, and as the
disposal left it after. -/
structure NoticeDecided (c : Instr) (f : Frame) (n : Notice) (s heard : State) (after : LoopPort) : Prop where
  done : exec c s = .next { (decideNotice n heard).1 with loop := after }
  same : { heard with loop := s.loop } = s
  own : heard.loop.own = s.loop.own
  attach : heard.loop.attach = s.loop.attach
  ownAfter : after.own = (decideNotice n heard).1.loop.own
  forward : after.forward = s.forwardNotice f (decideNotice n heard).2

/-- With the queue unheld, the release of the waiting notice changes its entry alone. -/
theorem releasedEntries_last {forward : List ForwardEntry} (unheld : ∀ e ∈ forward, e.held = false) (took : Bool) (station : Nat)
    (f : Frame) : releasedEntries took station (forward ++ [{ frame := f, held := true }]) =
      forward ++ [{ frame := if took then { f with body := writeTake f.body station } else f, held := false }] := by
  unfold releasedEntries
  rw [List.map_append]
  congr 1
  refine (List.map_congr_left fun e mem => ?_).trans (List.map_id forward)
  exact if_neg (by simp [unheld e mem])

/-- The decision leaves the configuration record. -/
theorem decideNotice_conf (n : Notice) (s : State) : (decideNotice n s).1.conf = s.conf := by
  exact conf_of_config ((keeps_decideNotice .join n s).config nofun)

/-- A notice past the first tests is decided on. -/
theorem exec_notice {c : Instr} {f : Frame} {n : Notice} {s : State} (row : lineFrameOf c = some f) (admits : s.Admits f)
    (reading : f.reading = .good (.notice n)) (unheld : ∀ e ∈ s.loop.forward, e.held = false) :
    ∃ heard after, NoticeDecided c f n s heard after := by
  have done := exec_admitted row admits
  obtain ⟨bad, ended, -⟩ := endReception_received f.octets s
  obtain ⟨-, -, -, notOwn, hops, room⟩ := admits
  rw [ended] at done
  let u : State := { s with loop := s.loop.received bad }
  have other : ¬u.isOwn f.origin.toNat = true := Bool.eq_false_iff.mp notOwn
  by_cases ring : s.inRing = true
  · have reading' : ({ f with hop := f.hop - 1 } : Frame).reading = .good (.notice n) := reading
    have disposed : dispose f u = arbitrate (decideHeld { f with hop := f.hop - 1 } n u) := by
      unfold dispose disposeInRing
      rw [if_pos (show u.inRing = true from ring), if_neg other, if_neg hops, if_pos (show u.loop.forward.length < 4 from room ring), forwardAndHand, reading']
    obtain ⟨-, loop⟩ := decideHeld_loop { f with hop := f.hop - 1 } n u
    refine ⟨enqueueForward { f with hop := f.hop - 1 } true u, (arbitrate (decideHeld { f with hop := f.hop - 1 } n u)).loop, ?_, rfl, rfl, rfl, ?_, ?_⟩
    · rw [done, disposed, arbitrate_eq]
      rfl
    · rw [loop]
    · rw [loop]
      unfold State.forwardNotice
      rw [if_pos ring]
      refine (releasedEntries_last unheld _ _ _).trans ?_
      rw [decideNotice_conf]
      rfl
  · have disposed : dispose f u = (decideNotice n u).1 := by
      unfold dispose disposeAside
      rw [if_neg (show ¬u.inRing = true from ring), if_neg other, if_neg hops, reading]
    have away : u.loop.attach ≠ .attached := fun attached => ring (by simp [State.inRing, show s.loop.attach = _ from attached])
    have loop := (decideNotice_loop n u).1 (.inr away)
    refine ⟨u, (decideNotice n u).1.loop, ?_, rfl, rfl, rfl, rfl, ?_⟩
    · rw [done, disposed]
    · rw [loop]
      unfold State.forwardNotice
      rw [if_neg ring]
      rfl

/-! ## The decision, by its tests (R33 to R41) -/

/-- The tests of R34, in words of the state. -/
theorem originalPasses_iff (n : Notice) (s : State) : originalPasses n s = true ↔ s.TakesOriginal n := by
  simp only [originalPasses, roomForPiece, State.fundsBelow, State.TakesOriginal, Bool.and_eq_true, decide_eq_true_eq,
    Bool.not_eq_true', decide_eq_false_iff_not, not_lt, and_assoc]

/-- The tests of R38 against an entry, in words of the state. -/
theorem releasePasses_iff (n : Notice) (e : PassingEntry) (s : State) : releasePasses n e s = true ↔ s.TakesRelease n e := by
  simp only [releasePasses, roomForPiece, State.fundsBelow, State.TakesRelease, Bool.and_eq_true, decide_eq_true_eq,
    Bool.not_eq_true', decide_eq_false_iff_not, not_lt, and_assoc]

/-- A duplicate (R33). -/
theorem decideNotice_duplicate {n : Notice} {s : State} (held : ∃ r ∈ s.tracker.pieces, r.piece = n.piece) :
    decideNotice n s = (countDuplicate s, false) := by
  have found : (s.piece? n.piece).isSome = true := by
    unfold State.piece?
    rw [List.find?_isSome]
    simpa using held
  exact if_pos found

/-- A notice of a piece without a record (R33). -/
theorem decideNotice_fresh {n : Notice} {s : State} (absent : ∀ r ∈ s.tracker.pieces, r.piece ≠ n.piece) :
    (n.releasedBy = 0 → decideNotice n s = decideOriginal n s) ∧ (n.releasedBy ≠ 0 → decideNotice n s = decideReleased n s) := by
  have none : ¬(s.piece? n.piece).isSome = true := by
    rw [piece?_of_absent absent]
    simp
  exact ⟨fun original => (if_neg none).trans (if_pos original), fun released => (if_neg none).trans (if_neg released)⟩

/-- An original that fails a test (R36). -/
theorem decideOriginal_fails {n : Notice} {s : State} (fails : ¬s.TakesOriginal n) :
    decideOriginal n s = (enterPassing n s, false) :=
  if_neg fun passes => fails ((originalPasses_iff n s).mp passes)

/-- An original that passes every test, by the bank (R35, R36). -/
theorem decideOriginal_passes {n : Notice} {s : State} (passes : s.TakesOriginal n) :
    ((askBank n.piece s).2 = none → decideOriginal n s = (enterPassing n (askBank n.piece s).1, false)) ∧
    ∀ b, (askBank n.piece s).2 = some b → decideOriginal n s =
      (take (originalRecord n b (askBank n.piece s).1) (askBank n.piece s).1, true) := by
  unfold decideOriginal
  rw [if_pos ((originalPasses_iff n s).mpr passes)]
  rcases askBank n.piece s with ⟨u, _ | b⟩
  · exact ⟨fun _ => rfl, nofun⟩
  · exact ⟨nofun, fun b' is => by rw [Option.some.inj is]⟩

/-- A release without an entry, or that fails a test (R40). -/
theorem decideReleased_fails {n : Notice} {s : State}
    (fails : ∀ e ∈ s.intake.passing, e.piece = n.piece → ¬s.TakesRelease n e) : decideReleased n s = (s, false) := by
  unfold decideReleased
  cases found : s.passing? n.piece with
  | none => rfl
  | some e =>
    have number : e.piece = n.piece := by simpa using List.find?_some found
    exact if_neg fun passes => fails e (List.mem_of_find?_eq_some found) number ((releasePasses_iff n e s).mp passes)

/-- A release that passes every test, by the bank (R39, R40). -/
theorem decideReleased_passes {n : Notice} {e : PassingEntry} {s : State}
    (entry : s.intake.passing.find? (fun x => x.piece == n.piece) = some e) (passes : s.TakesRelease n e) :
    ((askBank n.piece s).2 = none → decideReleased n s = ((askBank n.piece s).1, false)) ∧
    ∀ b, (askBank n.piece s).2 = some b → decideReleased n s =
      (take (releasedRecord n b e.reference (askBank n.piece s).1) (askBank n.piece s).1, true) := by
  have found : s.passing? n.piece = some e := entry
  unfold decideReleased
  rw [found]
  simp only [(releasePasses_iff n e s).mpr passes, if_true]
  rcases askBank n.piece s with ⟨u, _ | b⟩
  · exact ⟨fun _ => rfl, nofun⟩
  · exact ⟨nofun, fun b' is => by rw [Option.some.inj is]⟩

/-! ## The bank asked for does not see the Loop Port -/

/-- The Rate Store answers alike whatever the Loop Port holds. -/
theorem askBank_loop (p : PieceNo) (s : State) (l : LoopPort) :
    askBank p { s with loop := l } = ({ (askBank p s).1 with loop := l }, (askBank p s).2) := by
  have none : noBank { s with loop := l } = ({ (noBank s).1 with loop := l }, (noBank s).2) := by
    unfold noBank
    split <;> rfl
  have active : askActive { s with loop := l } = ({ (askActive s).1 with loop := l }, (askActive s).2) := by
    unfold askActive
    dsimp only
    cases s.rates.active with
    | some n => rfl
    | none => exact none
  unfold askBank
  dsimp only
  cases s.rates.switchPoint with
  | none => exact active
  | some point =>
    dsimp only
    by_cases after : atOrAfter p point.first = true
    · rw [if_pos after, if_pos after]
      cases s.rates.readyOf point.generation with
      | some n => rfl
      | none =>
        dsimp only
        cases s.rates.activeHas point.generation with
        | some n => rfl
        | none => exact none
    · rw [if_neg after, if_neg after]
      exact active

/-- Without a bank the mark is set, and BANK_NOT_READY raised if it was clear (R93). -/
theorem askBank_refused {p : PieceNo} {s : State} (refused : (askBank p s).2 = none) : (askBank p s).1 = { s with
    rates := { s.rates with notReady := true }
    port := if s.rates.notReady then s.port else (raise .bankNotReady s).port } := by
  have none : (noBank s).1 = { s with
      rates := { s.rates with notReady := true }
      port := if s.rates.notReady then s.port else (raise .bankNotReady s).port } := by
    unfold noBank
    split
    next marked =>
      have rates : s.rates = { s.rates with notReady := true } := by rw [← marked]
      exact congrArg (fun r => { s with rates := r }) rates
    next => rfl
  have active : (askActive s).2 = .none → askActive s = noBank s := by
    unfold askActive
    split
    · exact nofun
    · exact fun _ => rfl
  have refuses : askBank p s = noBank s := by
    unfold askBank at refused ⊢
    split at refused
    next => exact active refused
    next =>
      split at refused
      next after =>
        rw [if_pos after]
        split at refused
        · cases refused
        · split at refused
          · cases refused
          · rfl
      next before =>
        rw [if_neg before]
        exact active refused
  rw [refuses, none]

end Sys2Proof.Machine
end

section
/-! Notices not taken, notices without a bank, and takes (R33 to R42, R54, R93). -/

set_option Elab.async false

namespace Sys2Proof.Machine

/-! ## Not taken (R33, R36, R40) -/

/-- The forward queue after a notice that is not taken. -/
theorem forwardNotice_untaken (s : State) (f : Frame) : s.forwardNotice f false = s.forwardWith f := by
  unfold State.forwardNotice State.forwardWith
  rfl

namespace NoticeDecided

variable {c : Instr} {f : Frame} {n : Notice} {s heard : State} {after : LoopPort}

/-- The state heard is the state but for its Loop Port. -/
theorem heard_eq (h : NoticeDecided c f n s heard after) : heard = { s with loop := heard.loop } :=
  congrArg (fun t : State => { t with loop := heard.loop }) h.same

/-- A notice that is not taken goes on as it arrived, and the controller gives no frame of its own. -/
theorem untaken (h : NoticeDecided c f n s heard after) {t : State} (decided : decideNotice n heard = (t, false)) :
    exec c s = .next { t with loop := after } ∧ after.forward = s.forwardWith f ∧ after.own = s.loop.own := by
  obtain ⟨done, -, own, -, ownAfter, forward⟩ := h
  have loop := (decideNotice_loop n heard).1 (.inl (by rw [decided]))
  rw [decided] at done ownAfter forward loop
  exact ⟨done, forward.trans (forwardNotice_untaken s f), ownAfter.trans ((congrArg LoopPort.own loop).trans own)⟩

end NoticeDecided

/-- A duplicate is counted up to 65 535 (R33). -/
theorem countDuplicate_eq (s : State) : countDuplicate s = { s with intake := { s.intake with
    duplicates := if s.intake.duplicates < 65535 then s.intake.duplicates + 1 else 65535 } } := by
  have count : saturate 65535 (s.intake.duplicates + 1) =
      if s.intake.duplicates < 65535 then s.intake.duplicates + 1 else 65535 := by
    rw [saturate_eq_min]
    split <;> omega
  unfold countDuplicate
  rw [count]

/-- Settles O42: a duplicate, an original that fails a test, a release that fails one. -/
theorem noticeNotTaken : Obligations.NoticeNotTaken := by
  unfold Obligations.NoticeNotTaken
  intro c f n s row admits reading unheld
  obtain ⟨heard, after, decided⟩ := exec_notice row admits reading unheld
  refine ⟨_, decided.done, fun duplicate => ?_, fun absent original fails => ?_, fun absent released fails => ?_⟩
  all_goals obtain ⟨l, rfl⟩ : ∃ l, heard = { s with loop := l } := ⟨_, decided.heard_eq⟩
  · have counts := decideNotice_duplicate (s := { s with loop := l }) duplicate
    obtain ⟨-, forward, own⟩ := decided.untaken counts
    rw [counts, countDuplicate_eq]
    exact ⟨rfl, rfl, forward, own⟩
  · have passes := ((decideNotice_fresh (s := { s with loop := l }) absent).1 original).trans
      (decideOriginal_fails (s := { s with loop := l }) fails)
    obtain ⟨-, forward, own⟩ := decided.untaken passes
    rw [passes]
    exact ⟨rfl, forward, own, rfl⟩
  · have ignored := ((decideNotice_fresh (s := { s with loop := l }) absent).2 released).trans
      (decideReleased_fails (s := { s with loop := l }) fails)
    obtain ⟨-, forward, own⟩ := decided.untaken ignored
    rw [ignored]
    exact ⟨rfl, forward, own⟩

/-- Settles O43: the bank refuses, so the original is entered in the passing list and the release is let go. -/
theorem noticeWithoutBank : Obligations.NoticeWithoutBank := by
  unfold Obligations.NoticeWithoutBank
  intro c f n s row admits reading unheld absent refused
  obtain ⟨heard, after, decided⟩ := exec_notice row admits reading unheld
  obtain ⟨l, rfl⟩ : ∃ l, heard = { s with loop := l } := ⟨_, decided.heard_eq⟩
  have asked := askBank_loop n.piece s l
  have none : (askBank n.piece { s with loop := l }).2 = none := by rw [asked]; exact refused
  have state := askBank_refused none
  obtain ⟨fromOriginal, fromRelease⟩ := decideNotice_fresh (s := { s with loop := l }) absent
  refine ⟨fun original passes => ?_, fun e released entry passes => ?_⟩
  · have enters := (fromOriginal original).trans ((decideOriginal_passes (s := { s with loop := l }) passes).1 none)
    obtain ⟨done, forward, own⟩ := decided.untaken enters
    rw [state] at done
    exact ⟨_, done, forward, own, rfl, rfl, rfl, rfl⟩
  · have passed := (fromRelease released).trans ((decideReleased_passes (s := { s with loop := l }) entry passes).1 none)
    obtain ⟨done, forward, own⟩ := decided.untaken passed
    rw [state] at done
    exact ⟨_, done, forward, own, rfl, rfl, rfl⟩

/-! ## Takes (R35, R39, R42, R54) -/

/-- A record joins the table after the records whose references it has reached. -/
theorem insertRecord_split (r : PieceRecord) (pieces : List PieceRecord) : ∃ front back, pieces = front ++ back ∧
    insertRecord r pieces = front ++ r :: back ∧ (∀ q ∈ front, reached r.reference q.reference = true) ∧
      ∀ q, back.head? = some q → reached r.reference q.reference = false := by
  induction pieces with
  | nil => exact ⟨[], [], rfl, rfl, fun q mem => absurd mem List.not_mem_nil, fun q is => by cases is⟩
  | cons x rest ih =>
    unfold insertRecord
    by_cases past : reached r.reference x.reference = true
    · obtain ⟨front, back, parts, inserted, before, next⟩ := ih
      rw [if_pos past, inserted, parts]
      refine ⟨x :: front, back, rfl, rfl, fun q mem => ?_, next⟩
      rcases List.mem_cons.mp mem with rfl | mem
      · exact past
      · exact before q mem
    · rw [if_neg past]
      exact ⟨[], x :: rest, rfl, rfl, fun q mem => absurd mem List.not_mem_nil,
        fun q is => Option.some.inj is ▸ Bool.eq_false_iff.mpr past⟩

/-- The events after a frame is given (R9). -/
theorem giveFrame_port (kind : FrameKind) (body : List Byte) (s : State) : (giveFrame kind body s).port =
    if s.loop.attach = .attached ∧ 8 ≤ s.loop.own.length then (raise .frameDrop s).port else s.port := by
  unfold giveFrame
  by_cases attached : s.loop.attach = .attached
  · rw [if_pos attached]
    split
    next room =>
      rw [if_neg fun full => absurd full.2 (by omega)]
      simp
    next full => rw [if_pos ⟨attached, by omega⟩]
  · rw [if_neg attached, if_neg fun full => attached full.1]

/-- A take raises the count to the hold level with the feed-hold flag clear (R42). -/
abbrev State.holdsFeed (s : State) : Prop :=
  s.tracker.pieces.length + 1 = s.conf.holdLevel ∧ s.intake.feedHold = false

/-- What a take changes: the table, the passing list and the feed-hold flag, and with the flag the own-frame queue (R35, R42). -/
theorem take_effects (r : PieceRecord) (s : State) :
    (take r s).tracker = { s.tracker with pieces := insertRecord r s.tracker.pieces, nextTag := s.tracker.nextTag + 1 } ∧
    (take r s).intake = { s.intake with
      passing := s.intake.passing.filter (fun e => e.piece != r.piece)
      feedHold := if s.holdsFeed then true else s.intake.feedHold } ∧
    (take r s).loop.own = (if s.holdsFeed ∧ s.loop.attach = .attached ∧ s.loop.own.length < 8 then
      s.loop.own ++ [ownFrame s .feedHold (toOctets 1 s.conf.holdLevel)] else s.loop.own) ∧
    (take r s).port = (if s.holdsFeed ∧ s.loop.attach = .attached ∧ 8 ≤ s.loop.own.length then
      (raise .frameDrop s).port else s.port) := by
  have count : (insertRecord r s.tracker.pieces).length = s.tracker.pieces.length + 1 := (insertRecord_perm r _).length_eq
  have holds : ((dropPassing r.piece (addRecord r s)).tracker.pieces.length = (dropPassing r.piece (addRecord r s)).conf.holdLevel ∧
      (dropPassing r.piece (addRecord r s)).intake.feedHold = false) ↔ s.holdsFeed := by
    show ((insertRecord r s.tracker.pieces).length = _ ∧ _) ↔ _
    rw [count]
    rfl
  unfold take feedHoldRule
  by_cases feed : s.holdsFeed
  · have level : (dropPassing r.piece (addRecord r s)).tracker.pieces.length = s.conf.holdLevel := count.trans feed.1
    rw [if_pos (holds.mpr feed), level]
    simp only [giveFrame_keeps, giveFrame_own, giveFrame_port, eq_true feed, true_and, if_true]
    exact ⟨rfl, rfl, rfl, rfl⟩
  · rw [if_neg fun is => feed (holds.mp is)]
    simp only [feed, false_and, if_false]
    exact ⟨rfl, rfl, rfl, rfl⟩

/-- A take leaves every block but five. -/
theorem take_frame (r : PieceRecord) (s : State) :
    { take r s with loop := s.loop, tracker := s.tracker, intake := s.intake, port := s.port } = s := by
  have given : ∀ kind body (t : State), { giveFrame kind body t with loop := t.loop, port := t.port } = t := fun kind body t => by
    unfold giveFrame
    split
    · split
      · rw [arbitrate_of_loop]
      · rfl
    · rfl
  unfold take feedHoldRule
  split
  · exact congrArg (fun t : State => { t with loop := s.loop, tracker := s.tracker, intake := s.intake, port := s.port })
      (given .feedHold _ { dropPassing r.piece (addRecord r s) with intake := { (dropPassing r.piece (addRecord r s)).intake with feedHold := true } })
  · rfl

/-- The record of a taken original (R35, R58). -/
theorem originalRecord_eq (n : Notice) (b : Binding) (s : State) : originalRecord n b s =
    (let fresh : PieceRecord := {
       tag := s.tracker.nextTag, piece := n.piece, job := n.job, reference := s.tracker.position, binding := b,
       measure := none, address := none, rating := none, serial := none, state := .taken, flags := ConditionFlags.none }
     if reached s.tracker.position (s.checkpoints fresh).cutoff then
       { fresh with
           state := .ready
           flags := { ConditionFlags.none with weightDefaulted := true, dimsDefaulted := true, addressDefaulted := true } }
     else fresh) :=
  rfl

/-- The record of a taken release (R39). -/
theorem releasedRecord_eq (n : Notice) (b : Binding) (reference : Position) (s : State) : releasedRecord n b reference s =
    { tag := s.tracker.nextTag, piece := n.piece, job := n.job, reference := reference, binding := b,
      measure := n.measure, address := n.address, rating := none, serial := none,
      state := if n.measure ≠ none ∧ n.address ≠ none then .ready else .taken,
      flags := { ConditionFlags.none with releaseTaken := true } } := by
  unfold releasedRecord
  simp only [Option.isSome_iff_ne_none]

/-- Settles O44: the decision takes the record given, and `take_effects` says what a take changes. -/
theorem noticeTaken : Obligations.NoticeTaken := by
  unfold Obligations.NoticeTaken
  intro c f n s row admits reading unheld absent b bank r record
  obtain ⟨heard, after, decided⟩ := exec_notice row admits reading unheld
  obtain ⟨l, rfl⟩ : ∃ l, heard = { s with loop := l } := ⟨_, decided.heard_eq⟩
  have asked := askBank_loop n.piece s l
  obtain ⟨rates, port, changes, config⟩ := askBank_changes n.piece s
  have given : (askBank n.piece { s with loop := l }).2 = some b := by rw [asked]; exact bank
  let u : State := { s with loop := l, rates := rates, port := port }
  have state : (askBank n.piece { s with loop := l }).1 = u := by rw [asked, changes]
  have conf : u.conf = s.conf := conf_of_config config
  have takes : decideNotice n { s with loop := l } = (take r u, true) := by
    obtain ⟨fromOriginal, fromRelease⟩ := decideNotice_fresh (s := { s with loop := l }) absent
    rcases record with ⟨original, passes, rfl⟩ | ⟨released, e, entry, passes, rfl⟩
    · rw [fromOriginal original, (decideOriginal_passes (s := { s with loop := l }) passes).2 b given, state, originalRecord_eq]
      unfold State.checkpoints
      rw [conf]
    · rw [fromRelease released, (decideReleased_passes (s := { s with loop := l }) entry passes).2 b given, state, releasedRecord_eq]
  have number : r.piece = n.piece := by
    rcases record with ⟨-, -, rfl⟩ | ⟨-, e, -, -, rfl⟩
    · split <;> rfl
    · rfl
  obtain ⟨done, -, own, attach, ownAfter, forward⟩ := decided
  rw [takes] at done ownAfter forward
  obtain ⟨tracker, intake, takeOwn, takePort⟩ := take_effects r u
  obtain ⟨front, back, parts, inserted, before, next⟩ := insertRecord_split r s.tracker.pieces
  have feed : u.holdsFeed ↔ s.tracker.pieces.length + 1 = s.conf.holdLevel ∧ s.intake.feedHold = false := by
    unfold State.holdsFeed
    rw [conf]
  have frame : ownFrame u .feedHold (toOctets 1 u.conf.holdLevel) = ownFrame s .feedHold (toOctets 1 s.conf.holdLevel) := by
    unfold ownFrame
    rw [conf]
  have ownIs : u.loop.own = s.loop.own := own
  have attachIs : u.loop.attach = s.loop.attach := attach
  refine ⟨_, done, ⟨front, back, parts, tracker.trans (by rw [← inserted]), before, next⟩, ?_, ⟨?_, ?_, ?_⟩, fun ring => ?_,
    fun aside => ?_, congrArg (fun t : State => { t with loop := s.loop, rates := s.rates, port := s.port }) (take_frame r u)⟩
  · rw [changes]
    simp only [take_keeps]
    rfl
  · refine intake.trans ?_
    simp only [number, feed]
    rfl
  · refine ownAfter.trans (takeOwn.trans ?_)
    simp only [feed, attachIs, ownIs, frame]
  · refine takePort.trans ?_
    simp only [feed, attachIs, ownIs]
    rw [changes]
    rfl
  · refine forward.trans ((if_pos ring).trans ?_)
    rfl
  · exact forward.trans (if_neg (by simp [aside]))

end Sys2Proof.Machine
end

section
/-! The stages of a rating that weigh and charge a piece (R103 to R109, R113 to R118). -/

set_option Elab.async false

namespace Sys2Proof.Machine

/-! ## Shape (R103 to R105) -/

/-- The dimensions with the other plane side as the length. -/
def Dimensions.turned (d : Dimensions) : Dimensions :=
  { length := d.height, height := d.length, thickness := d.thickness }

theorem Dimensions.turned_longer (d : Dimensions) : d.turned.longer = d.longer :=
  max_comm _ _

theorem Dimensions.turned_shorter (d : Dimensions) : d.turned.shorter = d.shorter :=
  min_comm _ _

/-- The greater plane side times the lesser is the area. -/
theorem Dimensions.longer_mul_shorter (d : Dimensions) : d.longer * d.shorter = d.length * d.height :=
  max_mul_min _ _

/-- The shape of a piece with dimensions, by its tests in their order (R104). -/
theorem shapeOf_some (h : BankHeader) (d : Dimensions) :
    (shapeOf h (some d) = .undersize ↔ d.longer < h.minLength ∨ d.shorter < h.minHeight) ∧
    (shapeOf h (some d) = .letter ↔ ¬(d.longer < h.minLength ∨ d.shorter < h.minHeight) ∧ d.within h.letterMax = true) ∧
    (shapeOf h (some d) = .largeLetter ↔ ¬(d.longer < h.minLength ∨ d.shorter < h.minHeight) ∧ ¬d.within h.letterMax = true ∧
      d.within h.largeLetterMax = true) := by
  unfold shapeOf
  by_cases under : d.longer < h.minLength ∨ d.shorter < h.minHeight
  · simp [under]
  · by_cases letter : d.within h.letterMax = true
    · simp [under, letter]
    · by_cases large : d.within h.largeLetterMax = true
      · simp [under, letter, large]
      · simp [under, letter, large]

/-- The shape is the same whichever side is the length. -/
theorem shapeOf_turned (h : BankHeader) (d : Dimensions) : shapeOf h (some d.turned) = shapeOf h (some d) := by
  unfold shapeOf Dimensions.within
  simp only [d.turned_longer, d.turned_shorter]
  rfl

/-- The accepted set of a descriptor (R105). -/
theorem acceptsShape_iff (e : ServiceEntry) (shape : Shape) : acceptsShape e shape = true ↔
    shape = .letter ∧ e.acceptsLetter = true ∨ shape = .largeLetter ∧ e.acceptsLargeLetter = true ∨
      shape = .parcel ∧ e.acceptsParcel = true := by
  cases shape <;> simp [acceptsShape]

/-- Past stage 1 the rating ends with SHAPE_REFUSED exactly at a shape that is not accepted (R105). -/
theorem rate_shapeRefused_iff {i : RatingInputs} (passes : classFault i = none) (resolution : Nat) :
    rate resolution i = .fault .shapeRefused ↔ ¬acceptsShape i.descriptor (shapeOf i.bank.header i.dims) = true := by
  cases accepted : acceptsShape i.descriptor (shapeOf i.bank.header i.dims) with
  | false => simp [rate_of_shapeRefused resolution passes accepted]
  | true =>
    have other : rate resolution i ≠ .fault .shapeRefused := by
      cases found : stepFor i (chargeableWeight i (shapeOf i.bank.header i.dims)) with
      | none =>
        rw [rate_of_noStep resolution passes accepted found]
        simp
      | some step =>
        rw [rate_of_step resolution passes accepted found]
        rcases charge_cases resolution i (shapeOf i.bank.header i.dims) step with exceeds | ⟨r, flags, delivered, -⟩
        · simp [exceeds]
        · simp [delivered]
    simp [other]

/-! ## Weight (R107 to R109) -/

/-- A quotient rounded up is at most a number when the number of parts covers the whole. -/
theorem ceilDiv_le_iff {divisor : Nat} (positive : 1 ≤ divisor) (volume n : Nat) :
    ceilDiv volume divisor ≤ n ↔ volume ≤ n * divisor := by
  have covers : ceilDiv volume divisor < n + 1 ↔ volume + divisor - 1 < (n + 1) * divisor := Nat.div_lt_iff_lt_mul positive
  rw [Nat.add_mul, Nat.one_mul] at covers
  omega

/-- The dimensional weight is the least number of decigrams that covers the volume, at most 65 535 (R108). -/
theorem dimensionalWeight_le_iff {divisor n : Nat} (d : Dimensions) (positive : 1 ≤ divisor) (small : n ≤ 65535) :
    dimensionalWeight divisor d ≤ n ↔ n = 65535 ∨ d.length * d.height * d.thickness ≤ n * divisor := by
  have covers := ceilDiv_le_iff positive (d.longer * d.shorter * d.thickness) n
  rw [d.longer_mul_shorter] at covers
  unfold dimensionalWeight
  rw [saturate_eq_min, d.longer_mul_shorter, min_le_iff, covers]
  omega

/-- The dimensional weight is the same whichever side is the length. -/
theorem dimensionalWeight_turned (divisor : Nat) (d : Dimensions) :
    dimensionalWeight divisor d.turned = dimensionalWeight divisor d := by
  unfold dimensionalWeight
  rw [d.turned_longer, d.turned_shorter]
  rfl

/-- The effective weight, by the quality of the reading (R107). -/
theorem effectiveWeight_eq (i : RatingInputs) (w : Nat) :
    (i.reading = some { weight := w, quality := .settled } → effectiveWeight i = w) ∧
    (i.reading = some { weight := w, quality := .unsettled } → effectiveWeight i = min 65535 (w + i.bank.header.settleMargin)) ∧
    (i.reading = some { weight := w, quality := .failed } ∨ i.reading = none → effectiveWeight i = i.ceilingWeight) := by
  unfold effectiveWeight
  refine ⟨fun reading => by rw [reading], fun reading => ?_, fun reading => ?_⟩
  · rw [reading]
    exact saturate_eq_min _ _
  · rcases reading with reading | reading
    · rw [reading]
    · rw [reading]

/-- The chargeable weight, by the shape and the dimensions (R109). -/
theorem chargeableWeight_eq (i : RatingInputs) :
    (∀ d, i.dims = some d →
      chargeableWeight i .parcel = max (effectiveWeight i) (dimensionalWeight i.bank.header.divisor d)) ∧
    (i.dims = none → chargeableWeight i .parcel = max (effectiveWeight i) i.ceilingWeight) ∧
    chargeableWeight i .letter = effectiveWeight i ∧ chargeableWeight i .largeLetter = effectiveWeight i := by
  unfold chargeableWeight
  exact ⟨fun d dims => by rw [dims], fun dims => by rw [dims], rfl, rfl⟩

/-! ## The rating sees the plane sides without their order -/

/-- The inputs with the other plane side as the length. -/
abbrev RatingInputs.turned (i : RatingInputs) (d : Dimensions) : RatingInputs :=
  { i with dims := some d.turned }

/-- A rating is the same whichever side is the length (R103). -/
theorem rate_turned (resolution : Nat) {i : RatingInputs} {d : Dimensions} (dims : i.dims = some d) :
    rate resolution (i.turned d) = rate resolution i := by
  have shape : shapeOf i.bank.header (i.turned d).dims = shapeOf i.bank.header i.dims := by
    rw [dims]
    exact shapeOf_turned _ d
  have weight : ∀ shape, chargeableWeight (i.turned d) shape = chargeableWeight i shape := fun shape => by
    unfold chargeableWeight
    rw [dims]
    cases shape with
    | parcel => exact congrArg (max (effectiveWeight i)) (dimensionalWeight_turned _ d)
    | undersize | letter | largeLetter => rfl
  have surcharges : ∀ shape, surchargesOf (i.turned d) shape = surchargesOf i shape := fun shape => by
    have letters : machinable i.bank.header d.turned = machinable i.bank.header d := by
      unfold machinable
      rw [d.turned_longer, d.turned_shorter]
    unfold surchargesOf
    rw [dims]
    dsimp only
    rw [letters]
    rfl
  have flags : resultFlags (i.turned d) = resultFlags i := by
    unfold resultFlags
    rw [dims]
    rfl
  have charged : ∀ shape step, charge resolution (i.turned d) shape step = charge resolution i shape step := fun shape step => by
    unfold charge
    rw [surcharges, flags]
    rfl
  unfold rate
  dsimp only
  rw [shape, weight]
  simp only [charged]
  rfl

/-- Settles O22: the lemmas of stages 2 to 4. -/
theorem shapeAndWeight : Obligations.ShapeAndWeight := by
  unfold Obligations.ShapeAndWeight
  refine ⟨fun h d => ?_, fun resolution i d dims => rate_turned resolution dims, effectiveWeight_eq,
    fun divisor n d => dimensionalWeight_le_iff d, fun i => ?_⟩
  · have fits : ∀ m : SizeLimit, d.within m = true ↔ max d.length d.height ≤ m.length ∧ min d.length d.height ≤ m.height ∧
        d.thickness ≤ m.thickness := fun m => decide_eq_true_iff
    obtain ⟨undersize, letter, large⟩ := shapeOf_some h d
    rw [fits] at letter
    rw [fits, fits] at large
    exact ⟨undersize, letter, large, rfl⟩
  · obtain ⟨measured, without, letter, large⟩ := chargeableWeight_eq i
    refine ⟨measured, without, letter, large, acceptsShape_iff _ _, fun passes resolution => ?_⟩
    rw [rate_shapeRefused_iff passes, acceptsShape_iff]

end Sys2Proof.Machine
end

section
/-! The charges and the postage of a rated piece (R113 to R118). -/

set_option Elab.async false

namespace Sys2Proof.Machine

/-- The surcharges are at most the descriptor's two (R114). -/
theorem surchargesOf_le (i : RatingInputs) (shape : Shape) :
    surchargesOf i shape ≤ i.descriptor.nonMachinable + i.descriptor.thicknessSurcharge := by
  unfold surchargesOf
  cases i.dims with
  | none => exact Nat.zero_le _
  | some d =>
    dsimp only
    refine Nat.add_le_add ?_ ?_
    · split
      · exact le_rfl
      · exact Nat.zero_le _
    · split
      · exact le_rfl
      · exact Nat.zero_le _

/-- A multiple of the resolution within one resolution of a charge is the charge rounded up (R116). -/
theorem eq_roundUp {resolution raw rounded : Nat} (positive : 1 ≤ resolution) (multiple : rounded % resolution = 0)
    (covers : raw ≤ rounded) (near : rounded < raw + resolution) : rounded = roundUp resolution raw := by
  obtain ⟨multiple', covers', near'⟩ := roundUp_spec resolution raw positive
  have at0 : (rounded - roundUp resolution raw) % resolution = 0 := Nat.sub_mod_eq_zero_of_mod_eq (by rw [multiple, multiple'])
  have at0' : (roundUp resolution raw - rounded) % resolution = 0 := Nat.sub_mod_eq_zero_of_mod_eq (by rw [multiple, multiple'])
  rw [Nat.mod_eq_of_lt (by omega)] at at0 at0'
  omega

/-- The postage is at least 1, and a multiple of the resolution where the minimum charge is one (R117). -/
theorem postageOf_spec {resolution : Nat} (positive : 1 ≤ resolution) (minCharge raw : Nat) :
    1 ≤ postageOf resolution minCharge raw ∧
    (minCharge % resolution = 0 → postageOf resolution minCharge raw % resolution = 0) := by
  obtain ⟨multiple, -, -⟩ := roundUp_spec resolution raw positive
  unfold postageOf
  refine ⟨le_trans positive (le_max_right _ _), fun least => ?_⟩
  rcases max_choice (max (roundUp resolution raw) minCharge) resolution with inner | at_resolution
  · rw [inner]
    rcases max_choice (roundUp resolution raw) minCharge with rounded | least'
    · rw [rounded, multiple]
    · rw [least', least]
  · rw [at_resolution, Nat.mod_self]

/-- The postage is the greatest of the rounded charge, the minimum charge and the resolution (R116, R117). -/
theorem postageOf_priced {resolution : Nat} (positive : 1 ≤ resolution) (minCharge raw : Nat) :
    ∃ rounded, rounded % resolution = 0 ∧ raw ≤ rounded ∧ rounded < raw + resolution ∧
      postageOf resolution minCharge raw = max (max rounded minCharge) resolution := by
  obtain ⟨multiple, covers, near⟩ := roundUp_spec resolution raw positive
  exact ⟨_, multiple, covers, near, rfl⟩

/-- The flags of a result, by the inputs (R118). -/
theorem resultFlags_iff (i : RatingInputs) :
    ((resultFlags i).weightMargin = true ↔ ∃ w, i.reading = some { weight := w, quality := .unsettled }) ∧
    ((resultFlags i).weightDefaulted = true ↔ i.reading = none ∨ ∃ w, i.reading = some { weight := w, quality := .failed }) ∧
    ((resultFlags i).dimsDefaulted = true ↔ i.dims = none) ∧
    ((resultFlags i).addressDefaulted = true ↔ i.hasAddress = false) := by
  unfold resultFlags
  refine ⟨?_, ?_, Option.isNone_iff_eq_none, iff_of_eq (Bool.not_eq_true' i.hasAddress)⟩
  · cases i.reading with
    | none => simp
    | some w => obtain ⟨weight, quality⟩ := w; simp
  · cases i.reading with
    | none => simp
    | some w => obtain ⟨weight, quality⟩ := w; simp

/-- A postage comes of stages 7 and 8 for a step of an accepted shape. -/
theorem rate_postage {resolution : Nat} {i : RatingInputs} {r : RatingResult} {flags : ConditionFlags}
    (delivers : rate resolution i = .postage r flags) : acceptsShape i.descriptor (shapeOf i.bank.header i.dims) = true ∧
    ∃ step, stepFor i (chargeableWeight i (shapeOf i.bank.header i.dims)) = some step ∧
      charge resolution i (shapeOf i.bank.header i.dims) step = .postage r flags := by
  cases fault : classFault i with
  | some f =>
    rw [rate_of_classFault resolution fault] at delivers
    cases delivers
  | none =>
    cases accepted : acceptsShape i.descriptor (shapeOf i.bank.header i.dims) with
    | false =>
      rw [rate_of_shapeRefused resolution fault accepted] at delivers
      cases delivers
    | true =>
      cases found : stepFor i (chargeableWeight i (shapeOf i.bank.header i.dims)) with
      | none =>
        rw [rate_of_noStep resolution fault accepted found] at delivers
        cases delivers
      | some step =>
        rw [rate_of_step resolution fault accepted found] at delivers
        exact ⟨rfl, step, rfl, delivers⟩

/-- The result of stages 7 and 8 for a shape and a step (R113 to R118). -/
def chargedResult (resolution : Nat) (i : RatingInputs) (shape : Shape) (step : Nat × StepEntry) : RatingResult :=
  let base := baseCharge step.2 (zoneOf i)
  { postage := postageOf resolution i.descriptor.minCharge (base + surchargesOf i shape - discountOf i base)
    shape := shape, zone := zoneOf i, stepIndex := step.1, base := base
    surcharges := surchargesOf i shape, discount := discountOf i base }

/-- Stages 7 and 8 deliver the result unless its postage exceeds the value ceiling (R117). -/
theorem charge_eq (resolution : Nat) (i : RatingInputs) (shape : Shape) (step : Nat × StepEntry) :
    charge resolution i shape step =
      if i.bank.header.valueCeiling < (chargedResult resolution i shape step).postage then .fault .valueOver
      else .postage (chargedResult resolution i shape step) (resultFlags i) :=
  rfl

/-- Settles O25: the result of stages 7 and 8, and the one multiple of the resolution that the charge is rounded up to. -/
theorem chargesAndPostage : Obligations.ChargesAndPostage := by
  unfold Obligations.ChargesAndPostage
  intro resolution i positive shape inBounds surcharges discount priced
  have added : surchargesOf i shape = surcharges := rfl
  refine ⟨fun e => ⟨rfl, rfl, rfl, rfl⟩, fun r flags delivers => ?_, ?_⟩
  · obtain ⟨accepted, step, found, charged⟩ := rate_postage delivers
    rw [charge_eq] at charged
    split at charged
    next => cases charged
    next ceiling =>
      obtain ⟨rfl, rfl⟩ := RatingOutcome.postage.inj charged
      have entry := ((weightStep i (chargeableWeight i shape)).1 step.1 step.2 found).1
      obtain ⟨atLeastOne, multiple⟩ := postageOf_spec positive i.descriptor.minCharge
        (baseCharge step.2 (zoneOf i) + surchargesOf i shape - discountOf i (baseCharge step.2 (zoneOf i)))
      refine ⟨rfl, fun under => ?_, rfl, ?_, added, surchargesOf_le i shape, rfl, postageOf_priced positive _ _, not_lt.mp ceiling,
        atLeastOne, multiple, resultFlags_iff i⟩
      · rw [show shapeOf i.bank.header i.dims = .undersize from under] at accepted
        cases accepted
      · show baseCharge step.2 (zoneOf i) = _
        rw [entry]
        rfl
  · intro k e postage passes accepted found base price
    obtain ⟨rounded, multiple, covers, near, rfl⟩ := price
    obtain rfl := eq_roundUp positive multiple covers near
    rw [rate_of_step resolution passes accepted found, charge_eq]
    exact ⟨fun exceeds => if_pos exceeds, fun within => ⟨resultFlags i, if_neg (not_lt.mpr within)⟩⟩

end Sys2Proof.Machine
end

section
/-! What each store write changes in the non-volatile content (R121, R127 to R133). -/

set_option Elab.async false

namespace Sys2Proof.Machine

/-- A slot that holds an imprint holds its serial. -/
theorem holdsSerial_some (serial : Nat) (o : OpenImprint) : holdsSerial serial (some o) = (o.serial == serial) :=
  rfl

/-- A slot whose imprint, if any, has another serial does not hold the serial. -/
theorem holdsSerial_of_other {serial : Nat} {slot : Option OpenImprint} (other : ∀ x, slot = some x → x.serial ≠ serial) :
    holdsSerial serial slot = false := by
  cases slot with
  | none => rfl
  | some x => exact beq_false_of_ne (other x rfl)

/-- A CLOSE empties the slot of its serial (R128). -/
theorem vacate_eq (o : OpenImprint) (st : Store) :
    (st.open0 = some o → st.vacate o.serial = { st with open0 := none }) ∧
    ((∀ x, st.open0 = some x → x.serial ≠ o.serial) → st.open1 = some o → st.vacate o.serial = { st with open1 := none }) := by
  unfold Store.vacate
  refine ⟨fun slot => ?_, fun other slot => ?_⟩
  · rw [slot, holdsSerial_some, if_pos (beq_self_eq_true _)]
  · rw [holdsSerial_of_other other, slot, holdsSerial_some, if_neg Bool.false_ne_true, if_pos (beq_self_eq_true _)]

/-- The imprint of a serial is found in the slot that a CLOSE would empty. -/
theorem openOf_eq {o : OpenImprint} {st : Store}
    (slot : st.open0 = some o ∨ (∀ x, st.open0 = some x → x.serial ≠ o.serial) ∧ st.open1 = some o) :
    st.openOf o.serial = some o := by
  unfold Store.openOf Store.occupied
  rcases slot with lower | ⟨other, second⟩
  · rw [lower]
    exact List.find?_cons_of_pos (beq_self_eq_true _)
  · rw [second]
    cases first : st.open0 with
    | none => exact List.find?_cons_of_pos (beq_self_eq_true _)
    | some x =>
      exact (List.find?_cons_of_neg (by simpa using other x first)).trans (List.find?_cons_of_pos (beq_self_eq_true _))

/-- A COMMIT below the limit of the piece count moves the postage and fills the lower-numbered empty slot (R127). -/
theorem applyCommit_eq (free postage : Nat) (p : PieceNo) (job dateCode : Nat) {st : Store} (room : st.pc < 4294967295) :
    st.apply free (.commit postage p job dateCode) =
      Store.fill { serial := st.pc + 1, piece := p, value := postage, job := job, dateCode := dateCode }
        { st with dr := st.dr - postage, ar := st.ar + postage, pc := st.pc + 1 } := by
  show Store.applyCommit free postage p job dateCode st = _
  unfold Store.applyCommit nextCount
  rw [if_pos room]

/-- The lower-numbered empty slot is filled. -/
theorem fill_eq (o : OpenImprint) (st : Store) :
    (st.open0 = none → st.fill o = { st with open0 := some o }) ∧
    (st.open0 ≠ none → st.open1 = none → st.fill o = { st with open1 := some o }) := by
  unfold Store.fill
  refine ⟨fun empty => by rw [empty], fun full empty => ?_⟩
  obtain ⟨x, first⟩ := Option.ne_none_iff_exists'.mp full
  rw [first, empty]

/-- A record is appended with room and a sequence left, and is counted in the overflow totals otherwise (R121). -/
theorem append_eq (reason : SpoilReason) (p : PieceNo) (serial value job dateCode : Option Nat) (st : Store) :
    (st.spoils.length < 48 → st.sequence < 4294967295 → st.append reason p serial value job dateCode =
      { st with sequence := st.sequence + 1, spoils := st.spoils ++
          [{ sequence := st.sequence + 1, reason := reason, piece := p, serial := serial, value := value, job := job,
             dateCode := dateCode }] }) ∧
    (48 ≤ st.spoils.length ∨ 4294967295 ≤ st.sequence → st.append reason p serial value job dateCode =
      { st with overflowCount := min 4294967295 (st.overflowCount + 1),
                overflowValue := min 281474976710655 (st.overflowValue + value.getD 0) }) := by
  unfold Store.append
  refine ⟨fun room next => if_pos ⟨room, next⟩, fun full => ?_⟩
  rw [if_neg (by omega), saturate_eq_min, saturate_eq_min]

/-- A SPOIL from a slot empties it and appends its record (R129). -/
theorem applySpoilSlot_eq (free : Nat) {o : OpenImprint} (reason : SpoilReason) {st : Store}
    (slot : st.open0 = some o ∨ (∀ x, st.open0 = some x → x.serial ≠ o.serial) ∧ st.open1 = some o) :
    st.apply free (.spoilSlot o.serial reason) =
      (st.apply free (.close o.serial)).append reason o.piece (some o.serial) (some o.value) (some o.job) (some o.dateCode) := by
  show st.applySpoilSlot o.serial reason = _
  unfold Store.applySpoilSlot
  rw [openOf_eq slot]
  rfl

/-- Settles O26: one equation for each kind of write. -/
theorem writesOnTheStore : Obligations.WritesOnTheStore := by
  unfold Obligations.WritesOnTheStore
  refine ⟨?_, fun free o reason st => ?_, fun free serial value job amount sequence p reason st => ?_, append_eq⟩
  · intro free postage job dateCode p st room o moved
    rw [applyCommit_eq free postage p job dateCode room]
    exact fill_eq o moved
  · obtain ⟨first, second⟩ := vacate_eq o st
    exact ⟨first, second, applySpoilSlot_eq free reason⟩
  · refine ⟨rfl, rfl, ?_, ?_⟩
    · rw [← saturate_eq_min]
      rfl
    · rw [← List.drop_one]
      rfl

end Sys2Proof.Machine
end

section
/-! The commit checkpoint, the print checkpoint and the result deadline (R69 to R71, R149, R154). -/

set_option Elab.async false

namespace Sys2Proof.Machine

/-! ## The commit checkpoint -/

/-- The occupied slots are counted one by one. -/
theorem occupied_length (st : Store) :
    st.occupied.length = (if st.open0 = none then 0 else 1) + if st.open1 = none then 0 else 1 := by
  unfold Store.occupied
  cases st.open0 with
  | none => cases st.open1 <;> rfl
  | some o => cases st.open1 <;> rfl

/-- The admission of a COMMIT, in words of the state (R125). -/
theorem takesCommit_iff (s : State) : s.takesCommit = true ↔ s.mode ≠ .halted ∧ s.funds.writes.length ≤ 4 ∧
    ((if s.store.open0 = none then 0 else 1) + if s.store.open1 = none then 0 else 1) +
      s.funds.writes.countP (fun w => match w with | .commit .. => true | _ => false) < 2 ∧ s.store.pc < 4294967295 := by
  unfold State.takesCommit
  rw [decide_eq_true_iff, occupied_length]
  rfl

/-- The commit checkpoint of a record in RATED (R69, R70). -/
theorem commitOf_rated {r : PieceRecord} {s : State} (rated : r.state = .rated) :
    (s.takesCommit = true → commitOf r s = enqueueWrite (.commit r.postage r.piece r.job (s.jobParams r.job).dateCode)
      (changeRecord r.tag (fun x => { x with state := .committing }) s)) ∧
    (¬s.takesCommit = true → commitOf r s = missPiece r .pathBusy 0 (judgeFunds (lowerPledge r.postage s))) := by
  unfold commitOf
  rw [rated]
  exact ⟨fun takes => if_pos takes, fun refuses => if_neg refuses⟩

/-- Settles O47: the record's state decides, and in RATED the admission of the COMMIT. -/
theorem commitCheckpointTaken : Obligations.CommitCheckpointTaken := by
  unfold Obligations.CommitCheckpointTaken
  intro r s on sound held now occupied queued admitted postage
  have done : exec (.commitCheckpoint r.piece) s = .next (commitOf r s) :=
    exec_answers on (atCheckpoint_of_reached commitOf sound held now)
  have admits : s.takesCommit = true ↔ admitted := takesCommit_iff s
  rw [done]
  refine ⟨fun rated takes => ?_, fun rated refuses => ?_, fun early => ?_, fun later => ?_⟩
  · rw [(commitOf_rated rated).1 (admits.mpr takes), changeRecord_eq_withRecord _ sound held]
    rfl
  · rw [(commitOf_rated rated).2 fun takes => refuses (admits.mp takes)]
    rfl
  · unfold commitOf
    rcases early with is | is | is <;> rw [is] <;> rfl
  · unfold commitOf
    rcases later with is | is | is <;> rw [is]

/-! ## The print checkpoint and the result deadline -/

/-- The print checkpoint of a record that is not COMMITTED (R149). -/
theorem printOf_of_ne {r : PieceRecord} {s : State} (other : r.state ≠ .committed) : printOf r s = s := by
  unfold printOf
  cases is : r.state with
  | committed => exact absurd is other
  | taken | ready | rating | rated | committing | finishing => rfl

/-- The result deadline of a record that is not COMMITTED (R154). -/
theorem deadlineOf_of_ne {r : PieceRecord} {s : State} (other : r.state ≠ .committed) : deadlineOf r s = s := by
  unfold deadlineOf
  cases is : r.state with
  | committed => exact absurd is other
  | taken | ready | rating | rated | committing | finishing => rfl

/-- With room a message joins the send queue. -/
theorem sendEngine_of_room {s : State} (m : EngineMessage) (room : s.imprint.sendQueue.length < 8) : sendEngine m s =
    { s with imprint := { s.imprint with sendQueue := s.imprint.sendQueue ++ [m] } } :=
  if_pos room

/-- A slot write asked for, by the head mode (R74, R126). -/
theorem requestSlotWrite_eq {r : PieceRecord} {s : State} (w : StoreWrite) (sound : s.tracker.Sound)
    (held : r ∈ s.tracker.pieces) :
    (s.mode ≠ .halted → requestSlotWrite r w s = enqueueWrite w (s.withRecord r.piece { r with state := .finishing })) ∧
    (s.mode = .halted → requestSlotWrite r w s = missPiece r .storeFault (r.serial.getD 0) s) := by
  unfold requestSlotWrite
  rw [changeRecord_eq_withRecord _ sound held]
  exact ⟨fun runs => if_neg runs, fun halted => if_pos halted⟩

/-- Settles O48: the record's state decides, then the print path entry or the head mode. -/
theorem printAndDeadlineTaken : Obligations.PrintAndDeadlineTaken := by
  unfold Obligations.PrintAndDeadlineTaken
  intro r s on sound held room
  refine ⟨fun now => ?_, fun now => ?_⟩
  · have done : exec (.printCheckpoint r.piece) s = .next (printOf r s) :=
      exec_answers on (atCheckpoint_of_reached printOf sound held now)
    rw [done]
    refine ⟨fun e committed entry requested => ?_, fun other => by rw [printOf_of_ne other]⟩
    have found : s.pathOf r = some e := entry
    have gives : printOf r s = sendEngine (.print e.serial) (strike e.serial s) := by
      unfold printOf
      rw [committed, found]
      exact if_pos requested
    rw [gives, sendEngine_of_room (s := strike e.serial s) _ room]
    rfl
  · have done : exec (.resultDeadline r.piece) s = .next (deadlineOf r s) :=
      exec_answers on (atCheckpoint_of_reached deadlineOf sound held now)
    rw [done]
    refine ⟨?_, fun other => by rw [deadlineOf_of_ne other]⟩
    intro serial committed numbered gone
    have asks : deadlineOf r s = requestSlotWrite r (.spoilSlot serial .noResult) gone := by
      unfold deadlineOf
      rw [committed, numbered]
      exact congrArg (requestSlotWrite r _) (sendEngine_of_room (s := dropPath serial s) _ room)
    obtain ⟨runs, halted⟩ := requestSlotWrite_eq (r := r) (s := gone) (.spoilSlot serial .noResult) sound held
    refine ⟨fun mode => ?_, fun mode => ?_⟩
    · rw [asks, runs mode]
      rfl
    · rw [asks, halted mode, numbered]
      rfl

end Sys2Proof.Machine
end

section
/-! A rating started and its result applied (R63 to R68, R98). -/

set_option Elab.async false

namespace Sys2Proof.Machine

/-! ## The start (R63, R98) -/

/-- The first READY record in table order heads the rating queue. -/
theorem ratingQueue_head {s : State} {front back : List PieceRecord} {r : PieceRecord}
    (pieces : s.tracker.pieces = front ++ r :: back) (before : ∀ q ∈ front, q.state ≠ .ready) (ready : r.state = .ready) :
    s.ratingQueue = r :: back.filter (fun r => r.state == .ready) := by
  have none : front.filter (fun r => r.state == .ready) = [] :=
    List.filter_eq_nil_iff.mpr fun q mem => by simpa using before q mem
  unfold State.ratingQueue
  rw [pieces, List.filter_append, none, List.nil_append, List.filter_cons_of_pos (by simp [ready])]

/-- A change by tag in a table with unlike tags changes the one record. -/
theorem map_tag_eq {front back : List PieceRecord} {r : PieceRecord} (change : PieceRecord → PieceRecord)
    (tags : ((front ++ r :: back).map PieceRecord.tag).Nodup) :
    (front ++ r :: back).map (fun q => if q.tag = r.tag then change q else q) = front ++ change r :: back := by
  rw [List.map_append, List.map_cons, List.nodup_append] at tags
  obtain ⟨-, tail, apart⟩ := tags
  have others : ∀ l : List PieceRecord, (∀ q ∈ l, q.tag ≠ r.tag) →
      l.map (fun q => if q.tag = r.tag then change q else q) = l := fun l other =>
    (List.map_congr_left fun q mem => if_neg (other q mem)).trans (List.map_id l)
  rw [List.map_append, List.map_cons, if_pos rfl, others front, others back]
  · exact fun q mem same => (List.nodup_cons.mp tail).1 (same ▸ List.mem_map_of_mem mem)
  · exact fun q mem same => apart q.tag (List.mem_map_of_mem mem) r.tag List.mem_cons_self same

/-- The inputs of a record, by its parts, its job and the slot it is bound to (R98). -/
theorem ratingInputs_eq {s : State} {r : PieceRecord} {j : JobRecord} {b : Bank} (params : s.jobParams r.job = j.params)
    (bank : (s.rates.slot r.binding.slot).bank = b) :
    (∀ a, r.address = some a → (ratingInputs s r).serviceClass = a.serviceClass ∧ (ratingInputs s r).level = a.level ∧
      (ratingInputs s r).destination = a.digits ∧ (ratingInputs s r).hasAddress = true) ∧
    (r.address = none → (ratingInputs s r).serviceClass = j.params.defaultClass ∧
      (ratingInputs s r).level = j.params.defaultLevel ∧ (ratingInputs s r).destination = [] ∧
      (ratingInputs s r).hasAddress = false) ∧
    (∀ m, r.measure = some m → (ratingInputs s r).reading = some { weight := m.weight, quality := m.quality } ∧
      (m.dimsValid = true → (ratingInputs s r).dims = some { length := m.length, height := m.height, thickness := m.thickness }) ∧
      (m.dimsValid = false → (ratingInputs s r).dims = none)) ∧
    (r.measure = none → (ratingInputs s r).reading = none ∧ (ratingInputs s r).dims = none) ∧
    (ratingInputs s r).ceilingWeight = j.params.ceilingWeight ∧ (ratingInputs s r).jobZone = j.params.defaultZone ∧
    (ratingInputs s r).binding = r.binding ∧ (ratingInputs s r).bank = b := by
  unfold ratingInputs
  rw [params, bank]
  refine ⟨fun a address => ?_, fun absent => ?_, fun m measure => ?_, fun absent => ?_, rfl, rfl, rfl, rfl⟩
  · simp [address]
  · simp [absent]
  · simp +contextual [measure]
  · simp [absent]

/-! ## The result (R65 to R68) -/

/-- A record of the table is the one its tag finds. -/
theorem tagged?_of_mem {s : State} {r : PieceRecord} (sound : s.tracker.Sound) (held : r ∈ s.tracker.pieces) :
    s.tagged? r.tag = some r := by
  cases found : s.tagged? r.tag with
  | none => simpa using List.find?_eq_none.mp found r held
  | some q =>
    have tag : q.tag = r.tag := by simpa using List.find?_some found
    rw [List.inj_on_of_nodup_map sound.1 (List.mem_of_find?_eq_some found) held tag]

/-- A result is discarded when its record is no longer in RATING (R65). -/
theorem deliverResult_discarded {s : State} {flight : RatingInFlight} (engine : s.engine = some flight)
    (gone : ∀ r ∈ s.tracker.pieces, r.tag = flight.tag → r.state ≠ .rating) : deliverResult s = { s with engine := none } := by
  unfold deliverResult
  rw [engine]
  dsimp only
  cases found : s.tagged? flight.tag with
  | none => rfl
  | some r =>
    have tag : r.tag = flight.tag := by simpa using List.find?_some found
    exact if_neg (gone r (List.mem_of_find?_eq_some found) tag)

/-- A result is applied to its record in RATING (R65). -/
theorem deliverResult_applied {s : State} {flight : RatingInFlight} {r : PieceRecord} (engine : s.engine = some flight)
    (sound : s.tracker.Sound) (held : r ∈ s.tracker.pieces) (tag : r.tag = flight.tag) (rating : r.state = .rating) :
    deliverResult s = applyResult r flight.inputs { s with engine := none } := by
  have found : s.tagged? flight.tag = some r := by
    rw [← tag]
    exact tagged?_of_mem sound held
  unfold deliverResult
  rw [engine]
  dsimp only
  rw [found]
  exact if_pos rating

/-- The result applied, by the outcome of the rating and the free funds (R66, R67). -/
theorem applyResult_eq (r : PieceRecord) (i : RatingInputs) (s : State) :
    (∀ f, rate s.conf.resolution i = .fault f → applyResult r i s = applyFault r f i.serviceClass s) ∧
    ∀ x flags, rate s.conf.resolution i = .postage x flags →
      (s.store.dr < s.funds.pledged + x.postage → applyResult r i s = applyFault r .fundsShort i.serviceClass s) ∧
      (s.funds.pledged + x.postage ≤ s.store.dr → applyResult r i s = pledge r x flags s) := by
  unfold applyResult
  refine ⟨fun f fault => by rw [fault], fun x flags postage => ?_⟩
  rw [postage]
  exact ⟨fun short => if_pos (decide_eq_true short), fun covered => if_neg (by simpa [State.fundsBelow] using covered)⟩

/-- Settles O49: the start takes the head of the rating queue, the result goes by its record, the outcome and the free funds. -/
theorem ratingStartsAndEnds : Obligations.RatingStartsAndEnds := by
  unfold Obligations.RatingStartsAndEnds
  refine ⟨fun s front back r on idle sound pieces before ready => ?_, fun s flight on engine sound => ?_,
    fun s r j b job content => ratingInputs_eq ?_ ?_⟩
  · have starts : startRating s = changeRecord r.tag (fun x => { x with state := .rating })
        { s with engine := some { tag := r.tag, inputs := ratingInputs s r } } := by
      unfold startRating
      rw [idle, ratingQueue_head pieces before ready]
    have tags := sound.1
    rw [pieces] at tags
    refine (exec_answers (c := .ratingStart) on starts).trans ?_
    unfold changeRecord
    dsimp only
    rw [pieces, map_tag_eq (fun x => { x with state := .rating }) tags]
  · refine ⟨fun gone => exec_answers on (deliverResult_discarded engine gone), fun r held tag rating => ?_⟩
    have applied := deliverResult_applied engine sound held tag rating
    obtain ⟨faults, charges⟩ := applyResult_eq r flight.inputs { s with engine := none }
    refine ⟨fun f fault => exec_answers on (applied.trans (faults f fault)), fun x flags postage => ?_⟩
    obtain ⟨short, covered⟩ := charges x flags postage
    refine ⟨fun free => exec_answers on (applied.trans (short free)), fun free => exec_answers on (applied.trans ?_)⟩
    rw [covered free]
    unfold pledge
    rw [changeRecord_eq_withRecord (s := { s with engine := none, funds := { s.funds with pledged := s.funds.pledged + x.postage } })
      _ sound held]
    rfl
  · unfold State.jobParams State.job?
    rw [job]
  · unfold BankSlot.bank
    rw [content]
    rfl

end Sys2Proof.Machine
end

section
/-! The completion of a COMMIT (R72, R127, R143). -/

set_option Elab.async false

namespace Sys2Proof.Machine

/-- The record of a piece in COMMITTING is the one its number finds. -/
theorem committing?_of_mem {s : State} {r : PieceRecord} (sound : s.tracker.Sound) (held : r ∈ s.tracker.pieces)
    (committing : r.state = .committing) : s.committing? r.piece = some r := by
  cases found : s.committing? r.piece with
  | none => simpa [committing] using List.find?_eq_none.mp found r held
  | some q =>
    obtain ⟨number, -⟩ : q.piece = r.piece ∧ q.state = .committing := by simpa using List.find?_some found
    rw [List.inj_on_of_nodup_map sound.2.2 (List.mem_of_find?_eq_some found) held number]

/-- A second change by the same tag acts on the record as the first left it. -/
theorem changeRecord_again {tag : Nat} (f g : PieceRecord → PieceRecord) {s u : State}
    (tracker : u.tracker = (changeRecord tag f s).tracker) (keeps : ∀ r, (f r).tag = r.tag) :
    changeRecord tag g u = { u with tracker := (changeRecord tag (fun r => g (f r)) s).tracker } := by
  unfold changeRecord at tracker ⊢
  rw [tracker]
  dsimp only
  rw [List.map_map]
  refine congrArg (fun l => { u with tracker := { s.tracker with pieces := l } }) (List.map_congr_left fun r _ => ?_)
  simp only [Function.comp]
  by_cases own : r.tag = tag
  · rw [if_pos own, if_pos ((keeps r).trans own), if_pos own]
  · rw [if_neg own, if_neg own, if_neg own]

/-- The notice of an open place adds to the end of the write queue. -/
theorem placeNotice_writes (s : State) : ∃ more, (placeNotice s).funds.writes = s.funds.writes ++ more :=
  (waitingSpoilsAskedAgain s).2.2.1

/-- A LATE_COMMIT spoil asked for outside HALTED, of the record given its serial (R72, R126). -/
def askLateCommit (r : PieceRecord) (serial : Nat) (s u : State) : State :=
  { u with
    tracker := (s.withRecord r.piece { r with serial := some serial, state := .finishing }).tracker
    funds := { u.funds with writes := u.funds.writes ++ [.spoilSlot serial .lateCommit] } }

/-- The late case of a completed COMMIT: the SPOIL is asked for before or after the notice of a place (R126). -/
theorem commitLate_eq {r : PieceRecord} {o : OpenImprint} {s : State} (sound : s.tracker.Sound) (held : r ∈ s.tracker.pieces)
    (committing : r.state = .committing) (runs : s.mode ≠ .halted) :
    let debited := { s with
      freeCount := s.freeCount + 1
      tracker := (s.withRecord r.piece { r with serial := some o.serial, state := .committing }).tracker }
    commitLate r o s = placeNotice (askLateCommit r o.serial s debited) ∨
      commitLate r o s = askLateCommit r o.serial s (placeNotice debited) := by
  intro debited
  have record : { r with serial := some o.serial } = { r with serial := some o.serial, state := .committing } := by
    rw [← committing]
  have given : changeRecord r.tag (fun x => { x with serial := some o.serial }) { s with freeCount := s.freeCount + 1 } = debited :=
    (changeRecord_eq_withRecord (s := { s with freeCount := s.freeCount + 1 }) _ sound held).trans
      (congrArg (State.withRecord { s with freeCount := s.freeCount + 1 } r.piece) record)
  have asks : ∀ u : State, u.mode = s.mode → u.tracker = debited.tracker →
      requestSlotWrite { r with serial := some o.serial } (.spoilSlot o.serial .lateCommit) u = askLateCommit r o.serial s u :=
    fun u mode tracker => by
      have changed := changeRecord_again (tag := r.tag) (fun x => { x with serial := some o.serial })
        (fun x => { x with state := .finishing }) (tracker.trans (congrArg State.tracker given.symm)) fun _ => rfl
      have record := changeRecord_eq_withRecord (s := { s with freeCount := s.freeCount + 1 })
        (fun x => { x with serial := some o.serial, state := .finishing }) sound held
      unfold requestSlotWrite
      rw [if_neg (mode ▸ runs), changed, record]
      rfl
  unfold commitLate
  dsimp only
  rw [given]
  split
  · exact .inr (asks _ (by simp [debited]) (by simp))
  · exact .inl (congrArg placeNotice (asks _ rfl rfl))

/-- A COMMIT completes for its record in COMMITTING (R72, R127). -/
theorem exec_commitWriteComplete_of_mem {postage : Nat} {job dateCode : Nat} {rest : List StoreWrite} {r : PieceRecord} {s : State}
    (on : s.powered = true) (sound : s.tracker.Sound) (front : s.funds.writes = .commit postage r.piece job dateCode :: rest)
    (held : r ∈ s.tracker.pieces) (committing : r.state = .committing) (room : s.store.pc < 4294967295) :
    let o : OpenImprint :=
      { serial := s.store.pc + 1, piece := r.piece, value := postage, job := job, dateCode := dateCode }
    let t := lowerPledge postage (completeWrite (.commit postage r.piece job dateCode) rest s)
    exec .commitWriteComplete s = .next (
      if reached s.tracker.position (s.checkpoints r).print then commitLate r o t else commitOnTime r o t) := by
  intro o t
  refine exec_answers (c := .commitWriteComplete) on ?_
  have count : nextCount s.freeCount s.store.pc = s.store.pc + 1 := if_pos room
  show (match s.funds.writes with
    | .commit postage piece job dateCode :: rest => commitComplete postage piece job dateCode rest s
    | _ => s) = _
  rw [front]
  dsimp only
  unfold commitComplete
  rw [count]
  dsimp only
  rw [committing?_of_mem (s := t) sound held committing]
  rfl

/-- A COMMIT raises AR by its postage (R127). -/
theorem applyCommit_ar (free postage : Nat) (p : PieceNo) (job dateCode : Nat) (st : Store) :
    (st.apply free (.commit postage p job dateCode)).ar = st.ar + postage := by
  show (Store.fill _ _).ar = _
  unfold Store.fill
  split
  · rfl
  · split <;> rfl

/-- The timely case of a completed COMMIT: the record is COMMITTED, its imprint requested (R72, R143). -/
theorem commitOnTime_eq {r : PieceRecord} {o : OpenImprint} {s : State} (sound : s.tracker.Sound) (held : r ∈ s.tracker.pieces)
    (room : s.imprint.sendQueue.length < 8) : commitOnTime r o s = placeNotice { s with
      tracker := (s.withRecord r.piece { r with serial := some o.serial, state := .committed }).tracker
      imprint := { s.imprint with
        path := s.imprint.path ++ [{ serial := o.serial, tag := r.tag, phase := .requested }]
        sendQueue := s.imprint.sendQueue ++ [.imprintRequest o.serial (indicium s r o)] } } := by
  unfold commitOnTime
  rw [changeRecord_eq_withRecord _ sound held]
  exact congrArg placeNotice (if_pos room)

/-- What a late COMMIT leaves, whichever of the SPOIL and the notice of a place came first. -/
theorem askLateCommit_keeps {r : PieceRecord} {serial : Nat} {s v u : State}
    (either : u = placeNotice (askLateCommit r serial s v) ∨ u = askLateCommit r serial s (placeNotice v)) :
    u.store = v.store ∧ u.funds.pledged = v.funds.pledged ∧
    u.tracker = (s.withRecord r.piece { r with serial := some serial, state := .finishing }).tracker ∧
    .spoilSlot serial .lateCommit ∈ u.funds.writes ∧ (∃ more, u.funds.writes = v.funds.writes ++ more) ∧
    u.imprint = v.imprint ∧ u.mode = v.mode ∧ u.loop = v.loop ∧ u.rates = v.rates ∧ u.port = v.port := by
  rcases either with rfl | rfl
  · obtain ⟨more, writes⟩ := placeNotice_writes (askLateCommit r serial s v)
    obtain ⟨-, mode, loop, -, tracker, rates, -, store, pledged, -, -, -, -, -, imprint, port, -⟩ :=
      placeNotice_keeps (askLateCommit r serial s v)
    rw [writes]
    exact ⟨store, pledged, tracker, List.mem_append_left _ (List.mem_append_right _ List.mem_cons_self), ⟨_, List.append_assoc _ _ _⟩,
      imprint, mode, loop, rates, port⟩
  · obtain ⟨more, writes⟩ := placeNotice_writes v
    obtain ⟨-, mode, loop, -, -, rates, -, store, pledged, -, -, -, -, -, imprint, port, -⟩ := placeNotice_keeps v
    unfold askLateCommit
    rw [writes]
    exact ⟨store, pledged, rfl, List.mem_append_right _ List.mem_cons_self, ⟨_, List.append_assoc _ _ _⟩,
      imprint, mode, loop, rates, port⟩

/-- Settles O50: the timely case and the late one. -/
theorem commitCompletes : Obligations.CommitCompletes := by
  unfold Obligations.CommitCompletes
  intro postage p job dateCode rest r s on sound front held number committing count room serial done
  subst number
  have completes := exec_commitWriteComplete_of_mem on sound front held committing count
  let t := lowerPledge postage (completeWrite (.commit postage r.piece job dateCode) rest s)
  let o : OpenImprint := { serial := serial, piece := r.piece, value := postage, job := job, dateCode := dateCode }
  refine ⟨fun early => ?_, fun late runs => ?_⟩
  · rw [completes, if_neg (by simp [early])]
    refine congrArg Host.Outcome.next ((commitOnTime_eq (s := t) (o := o) sound held room).trans ?_)
    unfold indicium
    rw [show t.store.ar = s.store.ar + postage from applyCommit_ar _ _ _ _ _ _]
    rfl
  · rw [completes, if_pos late]
    have either := commitLate_eq (s := t) (o := o) sound held committing runs
    obtain ⟨store, pledged, tracker, asked, more, imprint, mode, loop, rates, port⟩ := askLateCommit_keeps either
    exact ⟨_, rfl, store, pledged, tracker, asked, more, imprint, mode, loop, rates, port, either⟩

end Sys2Proof.Machine
end

section
/-! The completions of CLOSE writes and of spoils, credits and drains (R75, R128 to R133, R138, R158, R163). -/

set_option Elab.async false

namespace Sys2Proof.Machine

/-! ## The recent franked list (R158) -/

/-- An entry may be removed unless it is SPOIL_PENDING or SPOILING. -/
theorem removable_iff (e : FrankedEntry) : e.removable = true ↔ ¬(e.state = .spoilPending ∨ e.state = .spoiling) := by
  unfold FrankedEntry.removable
  cases e.state <;> simp

/-- The removable entries of a list in which every one stays. -/
theorem any_removable_eq_false {recent : List FrankedEntry}
    (stay : ∀ y ∈ recent, y.state = .spoilPending ∨ y.state = .spoiling) : recent.any FrankedEntry.removable = false :=
  List.any_eq_false.mpr fun y mem removable => (removable_iff y).mp removable (stay y mem)

/-- A franked piece joins a list with room at its end, and a full one in place of its oldest removable entry. -/
theorem joinFranked_eq (e : FrankedEntry) (recent : List FrankedEntry) :
    (recent.length < 32 → joinFranked e recent = recent ++ [e]) ∧
    (recent.length = 32 → (∀ y ∈ recent, y.state = .spoilPending ∨ y.state = .spoiling) → joinFranked e recent = recent) ∧
    ∀ front y back, recent.length = 32 → recent = front ++ y :: back →
      (∀ z ∈ front, z.state = .spoilPending ∨ z.state = .spoiling) → ¬(y.state = .spoilPending ∨ y.state = .spoiling) →
      joinFranked e recent = front ++ back ++ [e] := by
  unfold joinFranked
  refine ⟨fun room => if_pos room, fun full stay => ?_, fun front y back full parts stay leaves => ?_⟩
  · rw [if_neg (by omega), any_removable_eq_false stay]
    rfl
  · have removable : y.removable = true := (removable_iff y).mpr leaves
    have some : recent.any FrankedEntry.removable = true := List.any_eq_true.mpr ⟨y, by simp [parts], removable⟩
    have erased : recent.eraseP FrankedEntry.removable = front ++ back := by
      rw [parts, List.eraseP_append_right _ fun z mem removes => (removable_iff z).mp removes (stay z mem),
        List.eraseP_cons_of_pos removable]
    rw [if_neg (by omega), if_pos some, erased]

/-! ## CLOSE and the spoils of records (R75, R128, R129) -/

/-- The front CLOSE completes for its record in FINISHING. -/
theorem exec_closeWriteComplete {serial : Nat} {rest : List StoreWrite} {r : PieceRecord} {s : State} (on : s.powered = true)
    (front : s.funds.writes = .close serial :: rest) (found : s.serial? serial .finishing = some r) :
    exec .closeWriteComplete s = .next (placeNotice (finishFranked r serial (completeWrite (.close serial) rest s))) := by
  have found' : (completeWrite (.close serial) rest s).serial? serial .finishing = some r := found
  refine exec_answers on ?_
  simp only [effect, front, closeComplete, found']

/-- The front SPOIL from a slot completes: the levels are judged, and then the conversion goes on or the piece is retired. -/
theorem exec_spoilSlotWriteComplete {serial : Nat} {reason : SpoilReason} {rest : List StoreWrite} {s : State}
    (on : s.powered = true) (front : s.funds.writes = .spoilSlot serial reason :: rest) :
    let t := judgeSpoils s.store.spoils.length (completeWrite (.spoilSlot serial reason) rest s)
    (reason ≠ .unconfirmed → ∀ r, s.serial? serial .finishing = some r →
      exec .spoilSlotWriteComplete s = .next (placeNotice (retireReported r (spoilCause reason) 0 serial t))) ∧
    (reason = .unconfirmed → exec .spoilSlotWriteComplete s = .next (placeNotice (continueConversion t))) := by
  intro t
  refine ⟨fun record r found => exec_answers on ?_, fun conversion => exec_answers on ?_⟩
  · have tracker : t.tracker = s.tracker := by simp only [t, judgeSpoils_keeps]; rfl
    have found' : t.serial? serial .finishing = some r := by
      unfold State.serial?
      rw [tracker]
      exact found
    simp only [effect, front, spoilSlotComplete, if_neg record]
    show placeNotice (finishSpoiled serial reason t) = _
    unfold finishSpoiled
    rw [found']
  · simp only [effect, front, spoilSlotComplete, if_pos conversion]
    rfl

/-- A queue holds a write of the conversion when it holds an UNCONFIRMED spoil (R138). -/
theorem any_isConversion (writes : List StoreWrite) :
    writes.any isConversion = true ↔ ∃ x, .spoilSlot x .unconfirmed ∈ writes := by
  rw [List.any_eq_true]
  constructor
  · rintro ⟨w, mem, conversion⟩
    cases w with
    | spoilSlot serial reason =>
      have unconfirmed : reason = .unconfirmed := by simpa [isConversion] using conversion
      exact ⟨serial, unconfirmed ▸ mem⟩
    | commit | close | spoilVerdict | spoilUnmatched | credit | drain => cases conversion
  · rintro ⟨x, mem⟩
    exact ⟨_, mem, rfl⟩

/-- The conversion ends when the queue holds none of its writes (R138). -/
theorem continueConversion_eq (s : State) :
    continueConversion s = { s with funds := { s.funds with startup := (continueConversion s).funds.startup } } ∧
    (s.funds.startup = .converting → (∀ x, .spoilSlot x .unconfirmed ∉ s.funds.writes) →
      (continueConversion s).funds.startup = .inUse) ∧
    (s.funds.startup ≠ .converting ∨ (∃ x, .spoilSlot x .unconfirmed ∈ s.funds.writes) →
      (continueConversion s).funds.startup = s.funds.startup) := by
  have none : s.funds.writes.any isConversion = false ↔ ∀ x, .spoilSlot x .unconfirmed ∉ s.funds.writes := by
    rw [← Bool.not_eq_true, any_isConversion, not_exists]
  unfold continueConversion
  split
  next ends =>
    refine ⟨rfl, fun _ _ => rfl, fun goes => ?_⟩
    rcases goes with other | ⟨x, mem⟩
    · exact absurd ends.1 other
    · exact absurd mem (none.mp ends.2 x)
  next goes => exact ⟨rfl, fun converting last => absurd ⟨converting, none.mpr last⟩ goes, fun _ => rfl⟩

/-- Settles O51: the front write's completion for the record found, and `joinFranked_eq` for the recent franked list. -/
theorem closingWritesComplete : Obligations.ClosingWritesComplete := by
  unfold Obligations.ClosingWritesComplete
  intro serial rest s on sound done finishing
  refine ⟨?_, joinFranked_eq, fun reason r front found cause => ?_, fun front => ?_⟩
  · intro r front found e
    exact exec_closeWriteComplete on front found
  · have record : reason ≠ .unconfirmed := by rcases cause with rfl | rfl | rfl <;> simp
    refine ((exec_spoilSlotWriteComplete on front).1 record r found).trans ?_
    rcases cause with rfl | rfl | rfl <;> rfl
  · let u := judgeSpoils s.store.spoils.length (completeWrite (.spoilSlot serial .unconfirmed) rest s)
    obtain ⟨same, ends, goes⟩ := continueConversion_eq u
    obtain ⟨-, mode, -, -, tracker, -, -, store, -, startup, -⟩ := placeNotice_keeps (continueConversion u)
    obtain ⟨-, uMode, -, -, uTracker, -, -, uStore, -, uWrites, uStartup, -⟩ :=
      judgeSpoils_keeps s.store.spoils.length (completeWrite (.spoilSlot serial .unconfirmed) rest s)
    have uStartup' : u.funds.startup = s.funds.startup := uStartup
    have uWrites' : u.funds.writes = rest := uWrites
    rw [uStartup', uWrites'] at ends goes
    refine ⟨_, (exec_spoilSlotWriteComplete on front).2 rfl, ?_, ?_, ?_, fun converting last => startup.trans (ends converting last),
      fun other => startup.trans (goes other), ?_⟩
    · exact store.trans ((congrArg State.store same).trans uStore)
    · exact tracker.trans ((congrArg State.tracker same).trans uTracker)
    · exact mode.trans ((congrArg State.mode same).trans uMode)
    · show placeNotice (continueConversion u) =
        placeNotice { u with funds := { u.funds with startup := (placeNotice (continueConversion u)).funds.startup } }
      rw [startup]
      exact congrArg placeNotice same

/-! ## Verdict and unmatched spoils, credits and drains (R130 to R133, R163) -/

/-- Settles O52: the arm of each completion for the write in front. -/
theorem otherWritesComplete : Obligations.OtherWritesComplete := by
  unfold Obligations.OtherWritesComplete
  intro rest s on done
  refine ⟨fun p serial value job reason front => ?_, fun p front => ?_, fun amount front => ?_, fun sequence front => ?_⟩
  · have completes : effect .spoilVerdictWriteComplete s = spoilVerdictComplete p serial value job reason rest s := by
      simp only [effect, front]
    exact exec_answers on completes
  · have completes : effect .spoilUnmatchedWriteComplete s = spoilUnmatchedComplete p rest s := by simp only [effect, front]
    exact exec_answers on completes
  · have completes : effect .creditWriteComplete s = creditComplete amount rest s := by simp only [effect, front]
    exact exec_answers on completes
  · have completes : effect .drainWriteComplete s = drainComplete sequence rest s := by simp only [effect, front]
    exact exec_answers on completes

end Sys2Proof.Machine
end

section
/-! The failure of store writes and the start-up read (R73, R76, R134, R137, R138). -/

set_option Elab.async false

namespace Sys2Proof.Machine

/-! ## One failed write (R134) -/

/-- A failed COMMIT: the pledge is returned, and its record in COMMITTING, if it is in the table, given up (R73). -/
theorem failCommit_eq (postage : Nat) (p : PieceNo) (u : State) :
    (u.tracker.Sound → ∀ r ∈ u.tracker.pieces, r.piece = p → r.state = .committing →
      failCommit postage p u =
        retire r .frankReport (frankBody p .storeFault 0 0) (raise .pieceMissed (judgeFunds (lowerPledge postage u)))) ∧
    ((∀ r ∈ u.tracker.pieces, r.piece = p → r.state ≠ .committing) →
      failCommit postage p u = judgeFunds (lowerPledge postage u)) := by
  have tracker : (judgeFunds (lowerPledge postage u)).tracker = u.tracker := by simp
  unfold failCommit
  dsimp only
  refine ⟨fun sound r held number committing => ?_, fun other => ?_⟩
  · have found : (judgeFunds (lowerPledge postage u)).committing? p = some r := by
      rw [← number]
      exact committing?_of_mem (by rw [tracker]; exact sound) (by rw [tracker]; exact held) committing
    rw [found]
    exact congrArg (fun number => retire r .frankReport (frankBody number .storeFault 0 0)
      (raise .pieceMissed (judgeFunds (lowerPledge postage u)))) number
  · have none : (judgeFunds (lowerPledge postage u)).committing? p = none := by
      unfold State.committing?
      rw [tracker]
      exact List.find?_eq_none.mpr fun r mem => by simpa using other r mem
    rw [none]

/-- A failed slot write gives up the FINISHING record with its serial, if there is one (R76). -/
theorem failSlotWrite_eq (serial : Nat) (u : State) :
    (∀ r, u.serial? serial .finishing = some r → failSlotWrite serial u = missPiece r .storeFault serial u) ∧
    (u.serial? serial .finishing = none → failSlotWrite serial u = u) := by
  unfold failSlotWrite
  exact ⟨fun r found => by rw [found], fun none => by rw [none]⟩

/-- A failed CLOSE, and a failed SPOIL of a record, fail as slot writes. -/
theorem failWrite_slot {serial : Nat} {reason : SpoilReason} {w : StoreWrite} (u : State)
    (slot : w = .close serial ∨ w = .spoilSlot serial reason ∧ reason ≠ .unconfirmed) : failWrite u w = failSlotWrite serial u := by
  rcases slot with rfl | ⟨rfl, record⟩
  · rfl
  · exact if_neg record

/-- A failed unmatched spoil's number waits if there is room (R163). -/
theorem holdUnmatched_eq (p : PieceNo) (u : State) : holdUnmatched p u = { u with verify := { u.verify with
    unmatched := if u.verify.unmatched.length < 4 then u.verify.unmatched ++ [p] else u.verify.unmatched } } := by
  unfold holdUnmatched
  split
  · rfl
  · rfl

/-! ## The whole queue (R134) -/

/-- The state in which the writes of the queue fail. -/
def State.storeFailing (s : State) : State :=
  raise .storeFault (halt { s with funds := { s.funds with writes := [] } })

/-- The failing head is HALTED with STORE_FAULT pending. -/
theorem storeFailing_failKeeps (s : State) : failKeeps s.storeFailing s.storeFailing :=
  ⟨rfl, rfl, (mem_addEvent_iff _ _ _).mpr (.inl rfl), rfl, rfl, rfl, rfl, rfl, rfl⟩

/-- With a write in progress, the failure fails every write of the queue in order. -/
theorem failStore_eq {s : State} (writing : s.funds.writes ≠ []) :
    failStore s = s.funds.writes.foldl failWrite s.storeFailing := by
  unfold failStore
  cases queue : s.funds.writes with
  | nil => exact absurd queue writing
  | cons w rest => rfl

/-! ## The start-up read (R137, R138) -/

/-- The writes of the conversion, by the occupied slots (R138). -/
theorem conversionWrites_eq (st : Store) :
    (st.open0 = none → st.open1 = none → conversionWrites st = []) ∧
    (∀ o, st.open0 = some o ∧ st.open1 = none ∨ st.open0 = none ∧ st.open1 = some o →
      conversionWrites st = [.spoilSlot o.serial .unconfirmed]) ∧
    ∀ o x, st.open0 = some o ∧ st.open1 = some x ∨ st.open0 = some x ∧ st.open1 = some o → o.serial < x.serial →
      conversionWrites st = [.spoilSlot o.serial .unconfirmed, .spoilSlot x.serial .unconfirmed] := by
  unfold conversionWrites
  refine ⟨fun first second => by rw [first, second], fun o one => ?_, fun o x two less => ?_⟩
  · rcases one with ⟨first, second⟩ | ⟨first, second⟩
    · rw [first, second]
    · rw [first, second]
  · rcases two with ⟨first, second⟩ | ⟨first, second⟩
    · rw [first, second]
      exact if_pos (by omega)
    · rw [first, second]
      exact if_neg (by omega)

/-- A good start-up read asks for the writes of the conversion, or opens the store (R137, R138). -/
theorem readGood_of_writes {s : State} {writes : List StoreWrite} (conversion : conversionWrites s.store = writes) :
    readGood s = { s with funds := { s.funds with
      writes := s.funds.writes ++ writes
      startup := if writes = [] then .inUse else .converting
      lowMark := false
      outMark := false
      warnMark := decide (40 ≤ s.store.spoils.length)
      fullMark := decide (48 ≤ s.store.spoils.length) } } := by
  unfold readGood
  rw [conversion]

/-- Settles O53: the failure of the queue, of each kind of write, and of the start-up read. -/
theorem storeFailureAndStartUp : Obligations.StoreFailureAndStartUp := by
  unfold Obligations.StoreFailureAndStartUp
  refine ⟨?_, fun u => ⟨fun postage p job dateCode => failCommit_eq postage p u, fun serial reason w slot => ?_,
    fun p serial value job reason => rfl, fun p => holdUnmatched_eq p u, fun n => ⟨rfl, rfl, rfl⟩⟩, fun s on reading => ?_⟩
  · intro s on writing t
    obtain ⟨mode, quiesce, fault, store, writes, point, attach, imprint, engine⟩ :=
      foldl_failWrite_keeps s.funds.writes s.storeFailing (storeFailing_failKeeps s)
    exact ⟨exec_answers (c := .storeWriteFailed) on (failStore_eq writing), store, mode, quiesce, writes, fault, point, attach,
      imprint, engine⟩
  · rw [failWrite_slot u slot]
    exact failSlotWrite_eq serial u
  · have completes : ∀ good, effect (.startupReadComplete good) s = if good then readGood s else readFailed s :=
      fun good => if_pos reading
    have good : ∀ writes, conversionWrites s.store = writes → exec (.startupReadComplete true) s = .next _ :=
      fun writes conversion => exec_answers on ((completes true).trans (readGood_of_writes conversion))
    obtain ⟨none, one, two⟩ := conversionWrites_eq s.store
    exact ⟨exec_answers on (completes false), fun first second => good [] (none first second), fun o slot => good _ (one o slot),
      fun o x slots less => good _ (two o x slots less)⟩

end Sys2Proof.Machine
end

section
/-! The imprint port: results, other messages and the send queue (R147 to R153). -/

set_option Elab.async false

namespace Sys2Proof.Machine

/-! ## Results (R150 to R153) -/

/-- An entry of the record in COMMITTED is settled: it goes, and the closing write is asked for (R74). -/
theorem settle_eq {e : PathEntry} {r : PieceRecord} {s u : State} (w : StoreWrite) (sound : s.tracker.Sound)
    (held : r ∈ s.tracker.pieces) (tag : r.tag = e.tag) (committed : r.state = .committed) (tracker : u.tracker = s.tracker) :
    settle e w u = requestSlotWrite r w (dropPath e.serial u) := by
  have found : u.tagged? e.tag = some r := by
    unfold State.tagged?
    rw [tracker, ← tag]
    exact tagged?_of_mem sound held
  unfold settle
  rw [found]
  exact if_pos committed

/-- A result that no entry carries the serial of (R153). -/
theorem result_late {serial : Nat} {s : State} (absent : ∀ e ∈ s.imprint.path, e.serial ≠ serial) :
    resultDone serial s = raise .lateResult s ∧ resultFailed serial s = raise .lateResult s := by
  have none : s.pathEntry serial = none := List.find?_eq_none.mpr fun e mem => by simpa using absent e mem
  unfold resultDone resultFailed
  rw [none]
  exact ⟨rfl, rfl⟩

/-- The state in which the closing write of a settled entry is asked for. -/
def State.afterResult (s : State) (serial : Nat) (sent : List EngineMessage) : State :=
  { s with imprint := {
      receiver := .outside
      path := s.imprint.path.filter (fun x => x.serial != serial)
      sendQueue := s.imprint.sendQueue ++ sent } }

/-- A DONE of an entry in STRUCK settles it with a CLOSE, one in REQUESTED with a CANCEL and a spoil (R150, R151). -/
theorem resultDone_eq {serial : Nat} {e : PathEntry} {s : State} (entry : s.pathEntry serial = some e)
    (room : s.imprint.sendQueue.length < 8) :
    (e.phase = .struck → resultDone serial s = settle e (.close serial) s) ∧
    (e.phase = .requested → resultDone serial s = settle e (.spoilSlot serial .printFailed)
      { s with imprint := { s.imprint with sendQueue := s.imprint.sendQueue ++ [.cancel serial] } }) := by
  unfold resultDone
  rw [entry]
  dsimp only
  refine ⟨fun struck => by rw [struck], fun requested => ?_⟩
  rw [requested, ← sendEngine_of_room _ room]

/-- A result settles its entry: a DONE in STRUCK with a CLOSE, a DONE in REQUESTED with a CANCEL and a spoil, a FAILED with a spoil
(R150 to R152). -/
theorem effect_result {serial : Word32} {e : PathEntry} {r : PieceRecord} {s : State}
    (entry : s.imprint.path.find? (fun x => x.serial == serial.toNat) = some e) (sound : s.tracker.Sound)
    (held : r ∈ s.tracker.pieces) (tag : r.tag = e.tag) (committed : r.state = .committed) (room : s.imprint.sendQueue.length < 8) :
    (e.phase = .struck → effect (.imprintDone serial) s =
      requestSlotWrite r (.close serial.toNat) (s.afterResult serial.toNat [])) ∧
    (e.phase = .requested → effect (.imprintDone serial) s =
      requestSlotWrite r (.spoilSlot serial.toNat .printFailed) (s.afterResult serial.toNat [.cancel serial.toNat])) ∧
    ∀ reason, effect (.imprintFailed serial reason) s =
      requestSlotWrite r (.spoilSlot serial.toNat .printFailed) (s.afterResult serial.toNat []) := by
  have found : (endMessage s).pathEntry serial.toNat = some e := entry
  have number : e.serial = serial.toNat := by simpa using List.find?_some entry
  have settles : ∀ sent w, settle e w { endMessage s with imprint := { (endMessage s).imprint with
      sendQueue := (endMessage s).imprint.sendQueue ++ sent } } = requestSlotWrite r w (s.afterResult serial.toNat sent) :=
    fun sent w => by
      refine Eq.trans (settle_eq (s := s) w sound held tag committed ?tracker) ?_
      case tracker => rfl
      rw [number]
      rfl
  have quiet : endMessage s = { endMessage s with imprint := { (endMessage s).imprint with
      sendQueue := (endMessage s).imprint.sendQueue ++ [] } } := by rw [List.append_nil]
  obtain ⟨struck, requested⟩ := resultDone_eq found room
  refine ⟨fun phase => ?_, fun phase => (requested phase).trans (settles _ _), fun reason => ?_⟩
  · refine (struck phase).trans ?_
    rw [quiet]
    exact settles [] _
  · refine Eq.trans (b := resultFailed serial.toNat (endMessage s)) rfl ?_
    unfold resultFailed
    rw [found, quiet]
    exact settles [] _

/-! ## Other messages (R148) -/

/-- The four octets after the first, as a number. -/
theorem quadAt_one {octets : List Byte} (long : 5 ≤ octets.length) : quadAt octets 1 = ofOctets ((octets.drop 1).take 4) := by
  match octets, long with
  | a :: b :: c :: d :: e :: rest, _ => exact quadAt_eq _ 1

/-- Four octets are a number of 32 bits. -/
theorem ofOctets_take_four_lt (octets : List Byte) : ofOctets (octets.take 4) < 2 ^ 32 := by
  have bound : ∀ l : List Byte, ofOctets l < 256 ^ l.length := fun l => by
    induction l with
    | nil => exact Nat.one_pos
    | cons b l ih =>
      have byte : ofOctets [b] + 1 ≤ 256 := by simpa [ofOctets] using b.isLt
      have scaled := Nat.mul_le_mul_right (256 ^ l.length) byte
      rw [← List.singleton_append, ofOctets_append, List.length_append, List.length_singleton, Nat.pow_add, pow_one]
      rw [Nat.add_mul, Nat.one_mul] at scaled
      omega
  calc ofOctets (octets.take 4) < 256 ^ (octets.take 4).length := bound _
    _ ≤ 256 ^ 4 := Nat.pow_le_pow_right (by norm_num) (List.length_take_le _ _)
    _ = 2 ^ 32 := by norm_num

/-- The first octet of a message, told as its head. -/
theorem octetAt_zero_iff {octets : List Byte} (some_ : octets ≠ []) (b : Byte) : octetAt octets 0 = b.toNat ↔ octets.head? = some b := by
  cases octets with
  | nil => exact absurd rfl some_
  | cons x rest => simp [octetAt, ← BitVec.toNat_inj]

/-- A message discarded, or handed on as its result. -/
theorem exec_completed {s : State} (on : s.powered = true) (octets : List Byte) :
    (readEngine octets = none → exec (.imprintMessageDiscarded (.completed octets)) s = .next (endMessage s)) ∧
    ∀ x, readEngine octets = some x → exec (.imprintMessageDiscarded (.completed octets)) s = .next (takeResult x (endMessage s)) := by
  have completes : effect (.imprintMessageDiscarded (.completed octets)) s = completeMessage octets (endMessage s) := rfl
  unfold completeMessage at completes
  refine ⟨fun bad => exec_answers on ?_, fun x good => exec_answers on ?_⟩
  · rw [completes, bad]
  · rw [completes, good]

/-- The imprint port after a symbol, by the receiver's step (R148). -/
theorem exec_engineSymbol {s : State} (on : s.powered = true) {sym : Symbol} {r : Receiver} :
    (∀ what, receiveStep 29 s.imprint.receiver sym = (r, what) → what = .nothing ∨ what = .abandoned →
      exec (.imprintMessageDiscarded (.symbol sym)) s = .next { s with imprint := { s.imprint with receiver := r } }) ∧
    ∀ octets, receiveStep 29 s.imprint.receiver sym = (.outside, .completed octets) →
      exec (.imprintMessageDiscarded (.symbol sym)) s = exec (.imprintMessageDiscarded (.completed octets)) s := by
  have symbol : effect (.imprintMessageDiscarded (.symbol sym)) s = engineSymbol sym s := rfl
  unfold engineSymbol at symbol
  refine ⟨fun what step silent => exec_answers on ?_, fun octets step => ?_⟩
  · rw [symbol, step]
    rcases silent with rfl | rfl
    · rfl
    · rfl
  · rw [exec_on on, exec_on on, symbol, step]
    rfl

/-- The symbols at the imprint port, one by one (R2, R148). -/
theorem engineSymbols {s : State} (on : s.powered = true) (sym : Symbol) :
    let c := Instr.imprintMessageDiscarded (.symbol sym)
    let heard := fun (r : Receiver) => exec c s = .next { s with imprint := { s.imprint with receiver := r } }
    (s.imprint.receiver = .outside → sym ≠ .opener → heard .outside) ∧
    (sym = .opener → heard (.receiving [])) ∧
    (∀ buffer, s.imprint.receiver = .receiving buffer →
      (sym = .idle ∨ sym = .cut → heard .outside) ∧
      (∀ b, sym = .octet b → buffer.length < 29 → heard (.receiving (buffer ++ [b]))) ∧
      (∀ b, sym = .octet b → 29 ≤ buffer.length → heard .ignoring) ∧
      (sym = .closer → exec c s = exec (.imprintMessageDiscarded (.completed buffer)) s)) ∧
    (s.imprint.receiver = .ignoring → (∀ b, sym = .octet b → heard .ignoring) ∧
      (sym = .idle ∨ sym = .cut ∨ sym = .closer → heard .outside)) := by
  intro c heard
  have silent : ∀ {r what}, receiveStep 29 s.imprint.receiver sym = (r, what) → what = .nothing ∨ what = .abandoned → heard r :=
    fun {r what} => (exec_engineSymbol on (r := r)).1 what
  refine ⟨fun outside other => ?_, fun opens => ?_, fun buffer receiving => ⟨fun ends => ?_, fun b octet room => ?_,
    fun b octet full => ?_, fun closes => ?_⟩, fun ignoring => ⟨fun b octet => ?_, fun ends => ?_⟩⟩
  · refine silent (what := .nothing) ?_ (.inl rfl)
    rw [outside]
    cases sym with
    | opener => exact absurd rfl other
    | idle | closer | cut | octet => rfl
  · subst opens
    cases state : s.imprint.receiver with
    | outside | ignoring => exact silent (what := .nothing) (by rw [state]; rfl) (.inl rfl)
    | receiving buffer => exact silent (what := .abandoned) (by rw [state]; rfl) (.inr rfl)
  · refine silent (what := .abandoned) ?_ (.inr rfl)
    rcases ends with rfl | rfl <;> rw [receiving] <;> rfl
  · refine silent (what := .nothing) ?_ (.inl rfl)
    rw [receiving, octet]
    exact if_pos room
  · refine silent (what := .abandoned) ?_ (.inr rfl)
    rw [receiving, octet]
    exact if_neg (by omega)
  · refine (exec_engineSymbol on (r := .outside)).2 buffer ?_
    rw [receiving, closes]
    rfl
  · refine silent (what := .nothing) ?_ (.inl rfl)
    rw [ignoring, octet]
    rfl
  · refine silent (what := .nothing) ?_ (.inl rfl)
    rcases ends with rfl | rfl | rfl <;> rw [ignoring] <;> rfl

/-- The results of messages of the two types and their lengths (R148). -/
theorem exec_completed_result {s : State} (on : s.powered = true) (octets : List Byte) :
    let serial := ofOctets ((octets.drop 1).take 4)
    let checked := registerOctets (lineCheck (octets.take (octets.length - 2))) = octets.drop (octets.length - 2)
    (checked → octets.length = 7 → octets.head? = some 0x61 → readEngine octets = some (.done serial) ∧
      exec (.imprintMessageDiscarded (.completed octets)) s = exec (.imprintDone (BitVec.ofNat 32 serial)) s) ∧
    (checked → octets.length = 8 → octets.head? = some 0x62 → readEngine octets = some (.failed serial) ∧
      ∀ reason, exec (.imprintMessageDiscarded (.completed octets)) s =
        exec (.imprintFailed (BitVec.ofNat 32 serial) reason) s) ∧
    (¬checked ∨ ¬(octets.length = 7 ∧ octets.head? = some 0x61 ∨ octets.length = 8 ∧ octets.head? = some 0x62) →
      readEngine octets = none) := by
  intro serial checked
  have spelled : (BitVec.ofNat 32 serial).toNat = serial := by
    rw [BitVec.toNat_ofNat]
    exact Nat.mod_eq_of_lt (ofOctets_take_four_lt _)
  have type : ∀ {n : Nat} (b : Byte), octets.length = n + 1 → (octetAt octets 0 = b.toNat ↔ octets.head? = some b) :=
    fun b length => octetAt_zero_iff (List.ne_nil_of_length_eq_add_one length) b
  refine ⟨fun good length head => ?_, fun good length head => ?_, fun bad => ?_⟩
  · have reads : readEngine octets = some (.done serial) := by
      rw [readEngine_checked good, if_pos ⟨(type 0x61 length).mpr head, length⟩, quadAt_one (by omega)]
    refine ⟨reads, ?_⟩
    rw [(exec_completed on octets).2 _ reads, exec_on on]
    show _ = Host.Outcome.next (resultDone (BitVec.ofNat 32 serial).toNat (endMessage s))
    rw [spelled]
    rfl
  · have reads : readEngine octets = some (.failed serial) := by
      rw [readEngine_checked good, if_neg (by omega), if_pos ⟨(type 0x62 length).mpr head, length⟩, quadAt_one (by omega)]
    refine ⟨reads, fun reason => ?_⟩
    rw [(exec_completed on octets).2 _ reads, exec_on on]
    show _ = Host.Outcome.next (resultFailed (BitVec.ofNat 32 serial).toNat (endMessage s))
    rw [spelled]
    rfl
  · rcases bad with bad | other
    · exact readEngine_of_check (Ne.symm bad)
    · refine readEngine_of_type (fun done => other (.inl ?_)) fun failed => other (.inr ?_)
      · exact ⟨done.2, (type 0x61 done.2).mp done.1⟩
      · exact ⟨failed.2, (type 0x62 failed.2).mp failed.1⟩

/-- Settles O54: the result's entry, the tests of a message, the receiver's step, the front of the send queue. -/
theorem engineResultsHandled : Obligations.EngineResultsHandled := by
  unfold Obligations.EngineResultsHandled
  intro s on ended
  refine ⟨fun serial c row => ⟨fun absent => ?_, ?_⟩, fun why => exec_answers on ?_, fun octets => (exec_completed on octets).1,
    exec_completed_result on, engineSymbols on, fun m rest queue => exec_answers on ?_⟩
  · obtain ⟨done, failed⟩ := result_late (s := ended) absent
    rcases row with rfl | ⟨reason, rfl⟩
    · exact exec_answers on done
    · exact exec_answers on failed
  · intro e r entry sound held tag committed room early w settled
    obtain ⟨struck, requested, failed⟩ := effect_result entry sound held tag committed room
    have asks : effect c s = requestSlotWrite r w settled := by
      rcases row with rfl | ⟨reason, rfl⟩
      · cases phase : e.phase with
        | struck => simpa [w, settled, early, phase, State.afterResult] using struck phase
        | requested => simpa [w, settled, early, phase, State.afterResult] using requested phase
      · simpa [w, settled, early, State.afterResult] using failed reason
    obtain ⟨runs, halted⟩ := requestSlotWrite_eq (r := r) (s := settled) w sound held
    exact ⟨fun mode => exec_answers on (asks.trans (runs mode)), fun mode => exec_answers on (asks.trans (halted mode))⟩
  · cases why <;> rfl
  · show messageSent s = _
    unfold messageSent
    rw [queue]

end Sys2Proof.Machine
end

section
/-! The store and its write queue: places, slots, ceilings and the order of the spoil records (R120, R121, R125, R126, R131). -/

set_option Elab.async false

namespace Sys2Proof.Machine

/-! ## The invariant of a store and a queue -/

/-- The invariant of StoreKept on a store and its write queue. -/
structure StoreHeld (st : Store) (writes : List StoreWrite) : Prop where
  places : (writes.filter fun w => !isSlotWrite w).length ≤ 6
  slots : st.occupied.length + commitsIn writes ≤ 2
  dr : st.dr + creditsIn writes ≤ 2000000000
  ct : st.ct + creditsIn writes ≤ 281474976710655
  ordered : st.SpoilsOrdered

/-- The invariant of StoreKept. -/
theorem storeSound_iff (s : State) : s.StoreSound ↔ StoreHeld s.store s.funds.writes :=
  ⟨fun ⟨places, slots, ⟨dr, ct⟩, ordered⟩ => ⟨places, slots, dr, ct, ordered⟩,
    fun h => ⟨h.places, h.slots, ⟨h.dr, h.ct⟩, h.ordered⟩⟩

/-- The COMMIT writes of two queues. -/
theorem commitsIn_append (a b : List StoreWrite) : commitsIn (a ++ b) = commitsIn a + commitsIn b :=
  List.countP_append

/-- The credits of two queues. -/
theorem creditsIn_append (a b : List StoreWrite) : creditsIn (a ++ b) = creditsIn a + creditsIn b := by
  simp [creditsIn]

/-- Whether a write is a COMMIT, counted. -/
theorem commitsIn_cons (w : StoreWrite) (rest : List StoreWrite) :
    commitsIn (w :: rest) = (if w.isCommit then 1 else 0) + commitsIn rest := by
  cases w with
  | commit => simp [commitsIn, StoreWrite.isCommit, Nat.add_comm]
  | _ => simp [commitsIn, StoreWrite.isCommit]

/-- What a write credits. -/
def StoreWrite.credited : StoreWrite → Nat
  | .credit amount => amount
  | _ => 0

/-- The credits of a queue. -/
theorem creditsIn_cons (w : StoreWrite) (rest : List StoreWrite) : creditsIn (w :: rest) = w.credited + creditsIn rest := by
  cases w with
  | _ => rfl

/-- What a write adds to the counts of a queue. -/
theorem counts_single (w : StoreWrite) : commitsIn [w] = (if w.isCommit then 1 else 0) ∧ creditsIn [w] = w.credited := by
  rw [commitsIn_cons, creditsIn_cons]
  exact ⟨rfl, rfl⟩

namespace StoreHeld

variable {st : Store} {writes : List StoreWrite}

/-- A write joins the queue where it finds a place, a slot and its credits (R125, R126, R131). -/
theorem push (h : StoreHeld st writes) (w : StoreWrite) (place : isSlotWrite w = true ∨ writes.length < 6)
    (slot : w.isCommit = true → st.occupied.length + commitsIn writes < 2)
    (dr : st.dr + creditsIn writes + w.credited ≤ 2000000000) (ct : st.ct + creditsIn writes + w.credited ≤ 281474976710655) :
    StoreHeld st (writes ++ [w]) := by
  obtain ⟨commits, credits⟩ := counts_single w
  refine ⟨?_, ?_, ?_, ?_, h.ordered⟩
  · rw [List.filter_append, List.length_append]
    rcases place with slotWrite | room
    · simpa [List.filter_cons, slotWrite] using h.places
    · have queue := List.length_filter_le (fun w => !isSlotWrite w) writes
      have one := List.length_filter_le (fun w => !isSlotWrite w) [w]
      simp only [List.length_singleton] at one
      omega
  · rw [commitsIn_append, commits]
    have slots := h.slots
    split
    next isCommit =>
      have := slot isCommit
      omega
    next => omega
  · rw [creditsIn_append, credits]
    omega
  · rw [creditsIn_append, credits]
    omega

/-- A write that neither fills a slot nor credits joins the queue. -/
theorem pushPlain (h : StoreHeld st writes) (w : StoreWrite) (place : isSlotWrite w = true ∨ writes.length < 6)
    (noCommit : w.isCommit = false) (noCredit : w.credited = 0) : StoreHeld st (writes ++ [w]) :=
  h.push w place (by simp [noCommit]) (by rw [noCredit]; exact h.dr) (by rw [noCredit]; exact h.ct)

/-- The queue emptied (R134, R136). -/
theorem emptied (h : StoreHeld st writes) : StoreHeld st [] where
  places := Nat.zero_le _
  slots := (Nat.le_add_right _ _).trans h.slots
  dr := (Nat.le_add_right _ _).trans h.dr
  ct := (Nat.le_add_right _ _).trans h.ct
  ordered := h.ordered

end StoreHeld

/-! ## A write applied -/

/-- A spoil record appended takes the next sequence, or is counted (R121). -/
theorem append_ordered (reason : SpoilReason) (piece : PieceNo) (serial value job dateCode : Option Nat) {st : Store}
    (h : st.SpoilsOrdered) : (st.append reason piece serial value job dateCode).SpoilsOrdered := by
  obtain ⟨rising, below⟩ := h
  unfold Store.append
  split
  · refine ⟨?_, fun x mem => ?_⟩
    · simp only [List.map_append, List.map_cons, List.map_nil, List.pairwise_append]
      refine ⟨rising, by simp, fun a memA b memB => ?_⟩
      obtain ⟨x, memX, rfl⟩ := List.mem_map.mp memA
      have := below x memX
      simp only [List.mem_singleton] at memB
      omega
    · rcases List.mem_append.mp mem with old | new
      · have := below x old
        show x.sequence ≤ st.sequence + 1
        omega
      · simp [List.mem_singleton.mp new]
  · exact ⟨rising, below⟩

/-- A slot emptied leaves the spoil list. -/
theorem vacate_spoils (serial : Nat) (st : Store) : (st.vacate serial).spoils = st.spoils ∧ (st.vacate serial).sequence = st.sequence := by
  unfold Store.vacate
  split_ifs
  · exact ⟨rfl, rfl⟩
  · exact ⟨rfl, rfl⟩
  · exact ⟨rfl, rfl⟩

/-- A slot filled leaves the spoil list, and one slot more is occupied at most (R127). -/
theorem fill_spoils (o : OpenImprint) (st : Store) : (Store.fill o st).spoils = st.spoils ∧ (Store.fill o st).sequence = st.sequence ∧
    (Store.fill o st).occupied.length ≤ st.occupied.length + 1 := by
  unfold Store.fill
  split
  next empty => exact ⟨rfl, rfl, by simp [Store.occupied, empty, Nat.add_comm]⟩
  · split
    next empty => exact ⟨rfl, rfl, by simp [Store.occupied, empty]⟩
    · exact ⟨rfl, rfl, Nat.le_succ _⟩

/-- A store with the same spoil list is as ordered. -/
theorem spoilsOrdered_of_eq {a b : Store} (spoils : b.spoils = a.spoils) (sequence : b.sequence = a.sequence) (h : a.SpoilsOrdered) :
    b.SpoilsOrdered := by
  unfold Store.SpoilsOrdered at h ⊢
  rw [spoils, sequence]
  exact h

/-- What an applied write does to the slots, the ceilings and the order. -/
theorem apply_held (free : Nat) (w : StoreWrite) {st : Store} (ordered : st.SpoilsOrdered) :
    (st.apply free w).occupied.length ≤ st.occupied.length + (if w.isCommit then 1 else 0) ∧
      (st.apply free w).dr ≤ st.dr + w.credited ∧ (st.apply free w).ct = st.ct + w.credited ∧ (st.apply free w).SpoilsOrdered := by
  cases w with
  | commit postage piece job dateCode =>
    simp only [Store.apply]
    obtain ⟨-, dr, ct⟩ := applyCommit_account free postage piece job dateCode st
    unfold Store.applyCommit at dr ct ⊢
    obtain ⟨spoils, sequence, occupied⟩ := fill_spoils
      { serial := nextCount free st.pc, piece := piece, value := postage, job := job, dateCode := dateCode }
      { st with dr := st.dr - postage, ar := st.ar + postage, pc := nextCount free st.pc }
    exact ⟨occupied, dr.le.trans (Nat.sub_le _ _), ct, spoilsOrdered_of_eq spoils sequence ordered⟩
  | close serial =>
    obtain ⟨-, dr, ct⟩ := vacate_account serial st
    obtain ⟨spoils, sequence⟩ := vacate_spoils serial st
    exact ⟨(vacate_occupied serial st).1.length_le, dr.le, ct, spoilsOrdered_of_eq spoils sequence ordered⟩
  | spoilSlot serial reason =>
    obtain ⟨-, dr, ct⟩ := apply_account (w := .spoilSlot serial reason) rfl free st
    obtain ⟨spoils, sequence⟩ := vacate_spoils serial st
    have vacated := spoilsOrdered_of_eq spoils sequence ordered
    refine ⟨?_, dr.le, ct, ?_⟩
    · simp only [Store.apply, Store.applySpoilSlot]
      split
      next o _ =>
        obtain ⟨open0, open1, -⟩ := append_slots reason o.piece (some o.serial) (some o.value) (some o.job) (some o.dateCode)
          (st.vacate serial)
        rw [openSerials_of_eq open0 open1]
        exact (vacate_occupied serial st).1.length_le
      next => exact le_rfl
    · simp only [Store.apply, Store.applySpoilSlot]
      split
      · exact append_ordered _ _ _ _ _ _ vacated
      · exact ordered
  | spoilVerdict piece serial value job reason =>
    obtain ⟨-, dr, ct⟩ := apply_account (w := .spoilVerdict piece serial value job reason) rfl free st
    obtain ⟨open0, open1, -⟩ := append_slots reason piece (some serial) (some value) (some job) none st
    exact ⟨(congrArg List.length (openSerials_of_eq open0 open1)).le, dr.le, ct, append_ordered _ _ _ _ _ _ ordered⟩
  | spoilUnmatched piece =>
    obtain ⟨-, dr, ct⟩ := apply_account (w := .spoilUnmatched piece) rfl free st
    obtain ⟨open0, open1, -⟩ := append_slots .verifyUnmatched piece none none none none st
    exact ⟨(congrArg List.length (openSerials_of_eq open0 open1)).le, dr.le, ct, append_ordered _ _ _ _ _ _ ordered⟩
  | credit amount => exact ⟨le_rfl, le_rfl, rfl, ordered⟩
  | drain sequence =>
    obtain ⟨rising, below⟩ := ordered
    refine ⟨le_rfl, le_rfl, rfl, ?_, fun x mem => below x (List.mem_of_mem_drop mem)⟩
    simp only [Store.apply, List.map_drop]
    exact rising.sublist (List.drop_sublist _ _)

/-- The front write applied (R124). -/
theorem StoreHeld.pop {st : Store} {w : StoreWrite} {rest : List StoreWrite} (h : StoreHeld st (w :: rest)) (free : Nat) :
    StoreHeld (st.apply free w) rest := by
  obtain ⟨occupied, dr, ct, ordered⟩ := apply_held free w h.ordered
  have slots := h.slots
  have heldDr := h.dr
  have heldCt := h.ct
  rw [commitsIn_cons] at slots
  rw [creditsIn_cons] at heldDr heldCt
  refine ⟨?_, by omega, by omega, by omega, ordered⟩
  exact ((List.sublist_cons_self w rest).filter _).length_le.trans h.places

/-! ## Operations that leave the store and the queue -/

/-- The second state has the store and the queue of the first. -/
structure SameStore (s t : State) : Prop where
  store : t.store = s.store := by simp
  writes : t.funds.writes = s.funds.writes := by simp

/-- The store is as sound. -/
theorem SameStore.sound {s t : State} (h : SameStore s t) (before : s.StoreSound) : t.StoreSound := by
  rw [storeSound_iff] at before ⊢
  rw [h.store, h.writes]
  exact before

namespace State.StoreSound

variable {s : State}

/-- A queue with one write more on the same store. -/
theorem queued {t : State} (store : t.store = s.store) {w : StoreWrite} (writes : t.funds.writes = s.funds.writes ++ [w])
    (held : StoreHeld s.store (s.funds.writes ++ [w])) : t.StoreSound := by
  rw [storeSound_iff, store, writes]
  exact held

/-- A slot write is admitted outright (R126). -/
theorem requestSlotWrite (h : s.StoreSound) (r : PieceRecord) (w : StoreWrite) (slot : isSlotWrite w = true) :
    (requestSlotWrite r w s).StoreSound := by
  have plain : w.isCommit = false ∧ w.credited = 0 := by
    cases w with
    | close | spoilSlot => exact ⟨rfl, rfl⟩
    | _ => cases slot
  unfold Machine.requestSlotWrite
  split
  · exact SameStore.sound {} h
  · exact queued (by simp) (by simp) (((storeSound_iff s).mp h).pushPlain w (.inl slot) plain.1 plain.2)

/-- A waiting spoil asked for again finds a place (R126, R162). -/
theorem placeNotice (h : s.StoreSound) : (placeNotice s).StoreSound := by
  refine placeNotice_induction (fun s t => s.StoreSound → t.StoreSound) (fun _ _ held => held)
    (fun s t u asked later held => later ?_) s h
  obtain ⟨-, -, -, -, -, -, -, store, -⟩ := retryOne_keeps s t asked
  obtain ⟨isOpen, w, writes⟩ := retryOne_adds s t asked
  have room := ((takesOther_iff s).mp isOpen).2
  have plain : w.isCommit = false ∧ w.credited = 0 := by
    unfold retryOne at asked
    rw [if_pos isOpen] at asked
    split at asked
    next e _ =>
      obtain rfl := Option.some.inj asked
      rw [requestVerdict, if_pos isOpen] at writes
      have same : verdictWrite e (e.reason.getD .unreadable) = w := by simpa using writes
      exact same ▸ ⟨rfl, rfl⟩
    next =>
      split at asked
      next p rest _ =>
        obtain rfl := Option.some.inj asked
        have same : .spoilUnmatched p = w := by simpa using writes
        exact same ▸ ⟨rfl, rfl⟩
      next => cases asked
  exact queued store writes (((storeSound_iff s).mp held).pushPlain w (.inr room) plain.1 plain.2)

/-- The front write is applied and leaves the queue (R124). -/
theorem completeWrite (h : s.StoreSound) {w : StoreWrite} {rest : List StoreWrite} (queue : s.funds.writes = w :: rest) :
    (completeWrite w rest s).StoreSound := by
  rw [storeSound_iff, queue] at h
  exact (storeSound_iff _).mpr (h.pop s.freeCount)

/-- A COMMIT is admitted where it finds a place and a slot (R125). -/
theorem commitOf (h : s.StoreSound) (r : PieceRecord) : (commitOf r s).StoreSound := by
  have same : ∀ {t}, SameStore s t → t.StoreSound := fun k => k.sound h
  unfold Machine.commitOf
  split
  · unfold commitRated
    split
    next takes =>
      obtain ⟨-, places, slots, -⟩ := of_decide_eq_true takes
      have held := (storeSound_iff s).mp h
      exact queued (by simp) (by simp) (held.push (.commit r.postage r.piece r.job (s.jobParams r.job).dateCode)
        (.inr (by omega)) (fun _ => slots) held.dr held.ct)
    next => exact same {}
  · exact same {}
  · exact same {}
  · exact same {}
  all_goals exact h

/-- The result deadline of a record (R154). -/
theorem deadlineOf (h : s.StoreSound) (r : PieceRecord) : (deadlineOf r s).StoreSound := by
  unfold Machine.deadlineOf
  split
  · exact requestSlotWrite (SameStore.sound {} h) _ _ rfl
  all_goals exact h

/-- An imprint settled (R74). -/
theorem settle (h : s.StoreSound) (e : PathEntry) (w : StoreWrite) (slot : isSlotWrite w = true) : (settle e w s).StoreSound := by
  unfold Machine.settle
  split
  · exact SameStore.sound {} h
  · split
    · exact requestSlotWrite (SameStore.sound {} h) _ _ slot
    · exact SameStore.sound {} h

/-- An IMPRINT DONE (R150, R151, R153). -/
theorem resultDone (h : s.StoreSound) (serial : Nat) : (resultDone serial s).StoreSound := by
  unfold Machine.resultDone
  split
  · exact h
  · split
    · exact h.settle _ _ rfl
    · exact settle (SameStore.sound {} h) _ _ rfl

/-- An IMPRINT FAILED (R152, R153). -/
theorem resultFailed (h : s.StoreSound) (serial : Nat) : (resultFailed serial s).StoreSound := by
  unfold Machine.resultFailed
  split
  · exact h
  · exact h.settle _ _ rfl

/-- A result delivered (R65). -/
theorem deliverResult (h : s.StoreSound) : (deliverResult s).StoreSound := by
  have faulty : ∀ (r : PieceRecord) (fault : RatingFault) (serviceClass : Nat) (u : State),
      SameStore u (applyFault r fault serviceClass u) := fun r fault serviceClass u =>
    { store := by simp [applyFault], writes := by simp [applyFault] }
  have pledged : ∀ (r : PieceRecord) (result : RatingResult) (flags : ConditionFlags) (u : State),
      SameStore u (pledge r result flags u) := fun r result flags u => { store := by simp [pledge], writes := by simp [pledge] }
  unfold Machine.deliverResult
  split
  · exact h
  · dsimp only
    split
    · exact h
    · split
      · unfold applyResult
        split
        · exact (faulty _ _ _ _).sound h
        · split
          · exact (faulty _ _ _ _).sound h
          · exact (pledged _ _ _ _).sound h
      · exact h

/-- A COMMIT completed (R72, R127). -/
theorem commitComplete (h : s.StoreSound) {postage : Nat} {piece : PieceNo} {job dateCode : Nat} {rest : List StoreWrite}
    (queue : s.funds.writes = .commit postage piece job dateCode :: rest) :
    (commitComplete postage piece job dateCode rest s).StoreSound := by
  have applied := h.completeWrite queue
  have lowered : (lowerPledge postage (Machine.completeWrite (.commit postage piece job dateCode) rest s)).StoreSound :=
    SameStore.sound {} applied
  have asked : ∀ (q : PieceRecord) (serial : Nat) (u : State), u.StoreSound →
      (Machine.requestSlotWrite q (.spoilSlot serial .lateCommit) u).StoreSound := fun q serial u held => held.requestSlotWrite _ _ rfl
  unfold Machine.commitComplete
  dsimp only
  split
  · exact lowered.placeNotice
  next r _ =>
    have numbered : ∀ (change : PieceRecord → PieceRecord) (u : State), u.StoreSound → (changeRecord r.tag change u).StoreSound :=
      fun _ _ held => held
    split
    · unfold commitLate
      dsimp only
      split
      · exact asked _ _ _ (placeNotice lowered)
      · exact placeNotice (asked _ _ _ lowered)
    · refine placeNotice ?_
      unfold requestImprint
      exact SameStore.sound {} lowered

/-- A CLOSE completed (R128). -/
theorem closeComplete (h : s.StoreSound) {serial : Nat} {rest : List StoreWrite} (queue : s.funds.writes = .close serial :: rest) :
    (closeComplete serial rest s).StoreSound := by
  have applied := h.completeWrite queue
  unfold Machine.closeComplete
  dsimp only
  split
  · exact applied.placeNotice
  · exact placeNotice (SameStore.sound (t := finishFranked _ _ _) { store := by simp [finishFranked], writes := by simp [finishFranked] } applied)

/-- A SPOIL from a slot completed (R129). -/
theorem spoilSlotComplete (h : s.StoreSound) {serial : Nat} {reason : SpoilReason} {rest : List StoreWrite}
    (queue : s.funds.writes = .spoilSlot serial reason :: rest) : (spoilSlotComplete serial reason rest s).StoreSound := by
  have judged : (judgeSpoils s.store.spoils.length (Machine.completeWrite (.spoilSlot serial reason) rest s)).StoreSound :=
    SameStore.sound {} (h.completeWrite queue)
  refine placeNotice ?_
  unfold continueConversion finishSpoiled
  repeat' split
  · exact SameStore.sound {} judged
  · exact judged
  · exact judged
  · exact SameStore.sound {} judged

/-- A failed store write empties the queue (R134). -/
theorem failStore (h : s.StoreSound) : (failStore s).StoreSound := by
  unfold Machine.failStore
  split
  · exact h
  next w rest queue =>
    have halted : failKeeps (raise .storeFault (halt { s with funds := { s.funds with writes := [] } }))
        (raise .storeFault (halt { s with funds := { s.funds with writes := [] } })) :=
      ⟨rfl, rfl, by simp [mem_addEvent], rfl, rfl, rfl, rfl, rfl, rfl⟩
    obtain ⟨-, -, -, store, writes, -⟩ := foldl_failWrite_keeps (w :: rest) _ halted
    rw [storeSound_iff, store, writes]
    exact ((storeSound_iff s).mp h).emptied

/-- The conversion joins the queue: slot writes alone (R138). -/
theorem readGood (h : s.StoreSound) : (readGood s).StoreSound := by
  have slots : ∀ w ∈ conversionWrites s.store, isSlotWrite w = true ∧ w.isCommit = false ∧ w.credited = 0 := fun w mem => by
    unfold conversionWrites at mem
    split at mem
    · cases mem
    · simp only [List.mem_singleton] at mem
      exact mem ▸ ⟨rfl, rfl, rfl⟩
    · simp only [List.mem_singleton] at mem
      exact mem ▸ ⟨rfl, rfl, rfl⟩
    · split at mem
      · simp only [List.mem_cons, List.not_mem_nil, or_false] at mem
        rcases mem with rfl | rfl
        · exact ⟨rfl, rfl, rfl⟩
        · exact ⟨rfl, rfl, rfl⟩
      · simp only [List.mem_cons, List.not_mem_nil, or_false] at mem
        rcases mem with rfl | rfl
        · exact ⟨rfl, rfl, rfl⟩
        · exact ⟨rfl, rfl, rfl⟩
  have joined : ∀ (more writes : List StoreWrite), (∀ w ∈ more, isSlotWrite w = true ∧ w.isCommit = false ∧ w.credited = 0) →
      StoreHeld s.store writes → StoreHeld s.store (writes ++ more) := fun more => by
    induction more with
    | nil => exact fun writes _ held => by simpa using held
    | cons w rest ih =>
      intro writes all held
      obtain ⟨slot, commit, credit⟩ := all w List.mem_cons_self
      have one := held.pushPlain w (.inl slot) commit credit
      simpa using ih (writes ++ [w]) (fun x mem => all x (List.mem_cons_of_mem _ mem)) one
  exact (storeSound_iff _).mpr (joined _ _ slots ((storeSound_iff s).mp h))

/-- A verdict (R160 to R162). -/
theorem takeVerdict (h : s.StoreSound) (p : PieceNo) (station : Nat) (v : VerifyVerdict) : (takeVerdict p station v s).StoreSound := by
  have verdict : ∀ e reason, (requestVerdict e reason s).StoreSound := fun e reason => by
    unfold requestVerdict
    split
    next isOpen =>
      have room := ((takesOther_iff s).mp isOpen).2
      exact queued (by simp) (by simp) (((storeSound_iff s).mp h).pushPlain (verdictWrite e reason) (.inr room) rfl rfl)
    next => exact h
  have unmatched : (requestUnmatched p (raise .verifyUnmatched s)).StoreSound := by
    unfold requestUnmatched
    split
    next isOpen =>
      have room := ((takesOther_iff s).mp isOpen).2
      exact queued (by simp) (by simp) (((storeSound_iff s).mp h).pushPlain (.spoilUnmatched p) (.inr room) rfl rfl)
    next => exact SameStore.sound {} h
  unfold Machine.takeVerdict matchedVerdict unmatchedVerdict
  repeat' split
  · exact h
  · exact verdict _ _
  · exact h
  · exact h
  · exact unmatched
  · exact h

/-- CREDIT keeps the ceilings and finds a place (R131). -/
theorem creditHead (h : s.StoreSound) (amount : Nat) : (creditHead amount s).StoreSound := by
  unfold Machine.creditHead
  split
  · exact h
  next passed =>
    simp only [creditRefusal] at passed
    split_ifs at passed with mode zero ceiling total full
    have held := (storeSound_iff s).mp h
    have pushed := held.push (.credit amount) (.inr (by omega)) (by simp [StoreWrite.isCommit]) (by simp only [StoreWrite.credited]; omega)
      (by simp only [StoreWrite.credited]; omega)
    exact queued (s := s) rfl rfl pushed

/-- DRAIN_SPOIL finds a place (R133). -/
theorem drainHead (h : s.StoreSound) (sequence : Nat) : (drainHead sequence s).StoreSound := by
  unfold Machine.drainHead
  split
  · exact h
  next passed =>
    simp only [drainRefusal] at passed
    split at passed
    · cases passed
    · split at passed
      · cases passed
      · split_ifs at passed with other full
        exact queued (s := s) rfl rfl (((storeSound_iff s).mp h).pushPlain (.drain sequence) (.inr (by omega)) rfl rfl)

end State.StoreSound

/-- The store after a restart (R136). -/
theorem Restarted.storeSound {s t : State} (h : Restarted s t) (before : s.StoreSound) : t.StoreSound := by
  have held := (storeSound_iff s).mp before
  have writes : t.funds.writes = [] := by
    rw [h.funds]
    rfl
  rw [storeSound_iff, writes]
  rcases h.store with same | cut
  · exact same ▸ held.emptied
  · rcases cutStore_cases s with same | ⟨w, rest, queue, applied⟩
    · rw [cut, same]
      exact held.emptied
    · rw [cut, applied]
      exact ((queue ▸ held).pop s.freeCount).emptied

/-- Every operation on the tables keeps the store. -/
theorem tableOps_storeSound : TableOps fun s t => s.StoreSound → t.StoreSound where
  before same kept h := kept (SameStore.sound ⟨same.store, same.writes⟩ h)
  after kept same h := SameStore.sound ⟨same.store, same.writes⟩ (kept h)
  same _ h := h
  notice n s h := by
    have asked : ∀ {u : State} {b : Option Binding}, askBank n.piece s = (u, b) → SameStore s u := fun {u b} asked => by
      obtain ⟨rates, port, changed, -⟩ := askBank_changes n.piece s
      have changed : u = { s with rates := rates, port := port } := by rw [← changed, asked]
      rw [changed]
      exact {}
    unfold decideNotice decideOriginal decideReleased
    repeat' split
    · exact h
    next e => exact SameStore.sound {} ((asked e).sound h)
    next e => exact (asked e).sound h
    · exact h
    · exact h
    next e => exact SameStore.sound {} ((asked e).sound h)
    next e => exact (asked e).sound h
    · exact h
  measure p part s h := by
    unfold reportTo
    split
    · exact h
    · exact h
  address p part s h := by
    unfold reportTo
    split
    · exact h
    · exact h
  jobClose n s h := by
    unfold closeJob markClosed
    repeat' split
    all_goals exact SameStore.sound {} h
  verdict p station v _ h := h.takeVerdict p station v
  cutoff r s _ h := by
    unfold cutoffOf
    split
    · exact h
    · exact h
  commit r _ _ h := h.commitOf r
  print r s _ h := by
    unfold printOf
    repeat' split
    all_goals exact SameStore.sound {} h
  deadline r _ _ h := h.deadlineOf r
  start s h := by
    unfold startRating
    repeat' split
    all_goals exact h
  deliver _ h := h.deliverResult
  commitWrite _ _ _ _ _ _ queue h := h.commitComplete queue
  closeWrite _ _ _ queue h := h.closeComplete queue
  spoilSlotWrite _ _ _ _ queue h := h.spoilSlotComplete queue
  spoilVerdictWrite piece serial value job reason rest s queue h :=
    State.StoreSound.placeNotice (SameStore.sound {} (h.completeWrite queue))
  spoilUnmatchedWrite _ _ _ queue h := State.StoreSound.placeNotice (SameStore.sound {} (h.completeWrite queue))
  creditWrite _ _ _ queue h := State.StoreSound.placeNotice (SameStore.sound {} (h.completeWrite queue))
  drainWrite _ _ _ queue h := State.StoreSound.placeNotice (SameStore.sound {} (h.completeWrite queue))
  failure _ h := h.failStore
  readGood _ _ h := h.readGood
  readFailed _ _ h := h
  done serial _ h := h.resultDone serial
  failed serial _ h := h.resultFailed serial
  load slot index part s h := by
    unfold loadBank loadInto
    repeat' split
    all_goals exact h
  bank slot s h := by
    unfold commitBank acceptCommit
    dsimp only
    repeat' split
    all_goals exact h
  configure c s h := by
    unfold configure
    repeat' split
    · exact h
    · exact h
    · exact h
    · exact h
    · exact h
    · exact SameStore.sound (s := acceptConfiguration c s) ⟨rfl, rfl⟩
        (SameStore.sound { store := by simp [acceptConfiguration], writes := by simp [acceptConfiguration] } h)
  relay _ _ _ h := h
  joined s h := by
    unfold joinSwitchComplete beginRunning
    repeat' split
    all_goals exact h
  left s h := by
    unfold leaveSwitchComplete
    split
    all_goals exact h
  quiesce q s h := by
    have quiescing : (enterQuiescing s).StoreSound := SameStore.sound {} h
    unfold quiesceHead quiesceRunning
    repeat' split
    · exact quiescing
    · exact h
    · exact quiescing
    · exact h
    · exact quiescing
    · exact h
    · exact h
    · exact h
  resume s h := by
    unfold resumeHead
    split
    · exact h
    · exact h
  credit amount _ h := h.creditHead amount
  drain sequence _ h := h.drainHead sequence
  restart restarted h := restarted.storeSound h

end Sys2Proof.Machine
end

section
/-! The imprints outstanding, tallied by serial: the records in COMMITTED and FINISHING, the conversion writes, the slot writes and the
occupied slots (R120, R126, R138, R142). -/

set_option Elab.async false

namespace Sys2Proof.Machine

/-! ## What a command starts from -/

/-- The premises of StoreKept, with the queues of the outgoing link left out. -/
structure State.Orderly (s : State) : Prop where
  funds : s.FundsBalanced
  store : s.StoreSound
  modes : s.ModesHeld
  settled : s.Settled

/-- The claim of StoreKept about the imprints outstanding, from one state to the next. -/
structure KeepsImprints (s t : State) : Prop where
  settled : s.Orderly → t.Settled
  serials : s.Orderly → s.SerialsSound → s.serialAhead → t.SerialsSound

/-- States with the same tables are calm. -/
theorem calm_of_same {s t : State} (h : SameTables s t) : calm s t :=
  calm_of_eq h.path h.pieces h.store h.writes h.startup h.mode

/-- The premises are ones of the tables. -/
theorem State.Orderly.of_same {s t : State} (h : s.Orderly) (same : SameTables s t) : t.Orderly where
  funds := (SameBooks.of_same same).funds.keeps h.funds
  store := SameStore.sound ⟨same.store, same.writes⟩ h.store
  modes := (SameModes.of_same same).held h.modes
  settled := calm_settled (calm_of_same same) h.settled

/-- A next serial is one of the store and the queue. -/
theorem serialAhead_of_same {s t : State} (same : SameTables s t) (h : s.serialAhead) : t.serialAhead := by
  unfold State.serialAhead at h ⊢
  rw [same.store, same.writes]
  exact h

/-- A calm operation. -/
theorem keepsImprints_of_calm {s t : State} (h : s.Orderly → calm s t) : KeepsImprints s t where
  settled orderly := calm_settled (h orderly) orderly.settled
  serials orderly serials _ := calm_serialsSound (h orderly) serials

/-- The same tables before. -/
theorem KeepsImprints.before {s t u : State} (same : SameTables s t) (h : KeepsImprints t u) : KeepsImprints s u where
  settled orderly := h.settled (orderly.of_same same)
  serials orderly serials ahead :=
    h.serials (orderly.of_same same) (calm_serialsSound (calm_of_same same) serials) (serialAhead_of_same same ahead)

/-- A calm operation after. -/
theorem KeepsImprints.after {s t u : State} (h : KeepsImprints s t) (quiet : s.Orderly → calm t u) : KeepsImprints s u where
  settled orderly := calm_settled (quiet orderly) (h.settled orderly)
  serials orderly serials ahead := calm_serialsSound (quiet orderly) (h.serials orderly serials ahead)

/-! ## The tally -/

/-- The invariant, tallied. -/
theorem settled_iff (s : State) : s.Settled ↔ s.PathSound ∧
    (∀ y, owed .committed s.tracker.pieces y + owed .finishing s.tracker.pieces y + (conversionSerials s.funds.writes).count y ≤
      s.store.openSerials.count y) ∧
    (s.mode ≠ .halted → s.funds.startup ≠ .reading → ∀ y, owed .committed s.tracker.pieces y + owed .finishing s.tracker.pieces y +
      (conversionSerials s.funds.writes).count y = s.store.openSerials.count y) ∧
    (∀ y, (closingSerials s.funds.writes).count y = owed .finishing s.tracker.pieces y) ∧
    (s.mode = .halted → s.funds.writes = []) ∧ (s.funds.startup = .reading → s.mode = .setup ∧ s.funds.writes = []) := by
  unfold State.Settled State.SlotsAnswered
  rw [answered_subperm_iff, answered_perm_iff, closing_perm_iff]
  tauto

/-- A record found among those owed. -/
theorem exists_of_owed {state : PieceState} {pieces : List PieceRecord} {y : Option Nat} (h : 0 < owed state pieces y) :
    ∃ r ∈ pieces, r.state = state ∧ r.serial = y := by
  obtain ⟨r, mem, holds⟩ := List.countP_pos_iff.mp h
  simp only [Bool.and_eq_true, beq_iff_eq] at holds
  exact ⟨r, mem, holds⟩

/-- A record is owed for. -/
theorem owed_pos {state : PieceState} {pieces : List PieceRecord} {r : PieceRecord} (mem : r ∈ pieces) (holds : r.state = state) :
    0 < owed state pieces r.serial :=
  List.countP_pos_iff.mpr ⟨r, mem, by simp [holds]⟩

/-- While the queue is not empty the head is not HALTED and the store has been read. -/
theorem State.Settled.running {s : State} (h : s.Settled) (queue : s.funds.writes ≠ []) :
    s.mode ≠ .halted ∧ s.funds.startup ≠ .reading := by
  obtain ⟨-, -, -, stopped, reading⟩ := h
  exact ⟨fun halted => queue (stopped halted), fun start => queue (reading start).2⟩

/-- While a piece is in the table the store has been read. -/
theorem State.Orderly.read_of_piece {s : State} (h : s.Orderly) {r : PieceRecord} (mem : r ∈ s.tracker.pieces) :
    s.funds.startup ≠ .reading := fun start => by
  obtain ⟨-, -, -, -, reading⟩ := h.settled
  obtain ⟨empty, -⟩ := h.modes.holds
  rw [empty (.inl (reading start).1)] at mem
  cases mem

/-- A record is known by its tag. -/
theorem State.Orderly.eq_of_tag {s : State} (h : s.Orderly) {q r : PieceRecord} (memQ : q ∈ s.tracker.pieces)
    (memR : r ∈ s.tracker.pieces) (tag : q.tag = r.tag) : q = r :=
  Machine.eq_of_tag h.funds.1 memQ memR tag

/-- A record with no slot, known by its tag. -/
theorem State.Orderly.free {s : State} (h : s.Orderly) {r : PieceRecord} (mem : r ∈ s.tracker.pieces)
    (free : r.state.outstanding = false) : ∀ q ∈ s.tracker.pieces, q.tag = r.tag → q.state.outstanding = false :=
  fun q memQ tag => by rwa [h.eq_of_tag memQ mem tag]

/-! ## An imprint is settled: its entry leaves the path and its record COMMITTED (R74, R142) -/

/-- The state with the entries of a serial dropped from the print path, and messages sent. -/
structure PathDropped (x : Nat) (s u : State) : Prop where
  path : u.imprint.path = s.imprint.path.filter (fun e => e.serial != x) := by simp [dropPath]
  pieces : u.tracker.pieces = s.tracker.pieces := by simp
  store : u.store = s.store := by simp
  writes : u.funds.writes = s.funds.writes := by simp
  startup : u.funds.startup = s.funds.startup := by simp
  mode : u.mode = s.mode := by simp

/-- What a state is after the record of a committed imprint left COMMITTED: the entries of its serial are gone from the path, the
other records stand, and none has become COMMITTED. -/
structure ImprintEnded (r : PieceRecord) (x : Nat) (s t : State) : Prop where
  path : t.imprint.path = s.imprint.path.filter (fun e => e.serial != x)
  others : ∀ q ∈ s.tracker.pieces, q.tag ≠ r.tag → q ∈ t.tracker.pieces
  committed : ∀ q ∈ t.tracker.pieces, q.state = .committed → q ∈ s.tracker.pieces ∧ q.tag ≠ r.tag
  store : t.store = s.store

/-- The print path stays sound. -/
theorem ImprintEnded.pathSound {r : PieceRecord} {x : Nat} {s t : State} (h : ImprintEnded r x s t) (orderly : s.Orderly)
    (mem : r ∈ s.tracker.pieces) (serial : r.serial = some x) : t.PathSound := by
  obtain ⟨⟨tags, records⟩, -⟩ := orderly.settled
  unfold State.PathSound
  rw [h.path]
  refine ⟨tags.sublist (List.filter_sublist.map _), fun e memE => ?_⟩
  obtain ⟨there, other⟩ := List.mem_filter.mp memE
  obtain ⟨q, memQ, tag, committed, serialQ⟩ := records e there
  refine ⟨q, h.others q memQ fun same => ?_, tag, committed, serialQ⟩
  rw [orderly.eq_of_tag memQ mem same, serial] at serialQ
  simp [Option.some.inj serialQ] at other

/-- The serials stay sound: no other COMMITTED record has the serial of the one settled. -/
theorem ImprintEnded.serialsSound {r : PieceRecord} {x : Nat} {s t : State} (h : ImprintEnded r x s t) (orderly : s.Orderly)
    (mem : r ∈ s.tracker.pieces) (was : r.state = .committed) (serial : r.serial = some x) (sound : s.SerialsSound) :
    t.SerialsSound := by
  obtain ⟨nodup, below, entries⟩ := sound
  obtain ⟨⟨-, records⟩, slots, -⟩ := (settled_iff s).mp orderly.settled
  unfold State.SerialsSound
  rw [h.store]
  refine ⟨nodup, below, fun q memQ committed => ?_⟩
  obtain ⟨old, other⟩ := h.committed q memQ committed
  obtain ⟨e, memE, tag⟩ := entries q old committed
  obtain ⟨p, memP, tagP, committedP, serialP⟩ := records e memE
  obtain rfl : p = q := orderly.eq_of_tag memP old (tagP.trans tag)
  refine ⟨e, h.path ▸ List.mem_filter.mpr ⟨memE, bne_iff_ne.mpr fun same => ?_⟩, tag⟩
  have removed := owed_remove .committed s.tracker.pieces r orderly.funds.1.1 mem (some x)
  rw [if_pos ⟨was, serial⟩] at removed
  have left : p ∈ s.tracker.pieces.filter fun q => q.tag != r.tag := List.mem_filter.mpr ⟨old, by simpa using other⟩
  have still := owed_pos left committedP
  rw [serialP, same] at still
  have once := List.nodup_iff_count_le_one.mp nodup (some x)
  have held := slots (some x)
  omega

/-- A slot write asked for at a settled imprint (R74). -/
theorem keepsImprints_requestSlotWrite {r : PieceRecord} {w : StoreWrite} {x : Nat} {s u : State} (dropped : PathDropped x s u)
    (mem : r ∈ s.tracker.pieces) (was : r.state = .committed) (serial : s.Orderly → r.serial = some x)
    (closing : closingSerials [w] = [some x]) (conversion : conversionSerials [w] = []) :
    KeepsImprints s (requestSlotWrite r w u) := by
  have ended : s.Orderly → ImprintEnded r x s (requestSlotWrite r w u) := fun orderly => by
    unfold requestSlotWrite
    split
    · have pieces : (missPiece r .storeFault (r.serial.getD 0) u).tracker.pieces =
          s.tracker.pieces.filter fun q => q.tag != r.tag := by simp [missPiece, retireReported, dropped.pieces]
      refine ⟨by simp [dropped.path], fun q memQ other => ?_, fun q memQ _ => ?_, by simp [dropped.store]⟩
      · rw [pieces]
        exact List.mem_filter.mpr ⟨memQ, by simpa using other⟩
      · rw [pieces] at memQ
        obtain ⟨old, other⟩ := List.mem_filter.mp memQ
        exact ⟨old, by simpa using other⟩
    · have pieces : (enqueueWrite w (changeRecord r.tag (fun x => { x with state := .finishing }) u)).tracker.pieces =
          s.tracker.pieces.map fun q => if q.tag = r.tag then { q with state := .finishing } else q := by simp [dropped.pieces]
      refine ⟨by simp [dropped.path], fun q memQ other => ?_, fun q memQ committed => ?_, by simp [dropped.store]⟩
      · rw [pieces]
        exact List.mem_map.mpr ⟨q, memQ, if_neg other⟩
      · rw [pieces] at memQ
        obtain ⟨p, memP, rfl⟩ := List.mem_map.mp memQ
        split at committed
        next => cases committed
        next other => exact ⟨by rwa [if_neg other], by rwa [if_neg other]⟩
  refine ⟨fun orderly => ?_, fun orderly sound _ => (ended orderly).serialsSound orderly mem was (serial orderly) sound⟩
  have holds := serial orderly
  have tags := orderly.funds.1.1
  obtain ⟨-, below, same, closes, stopped, reading⟩ := (settled_iff s).mp orderly.settled
  rw [settled_iff]
  refine ⟨(ended orderly).pathSound orderly mem holds, ?_⟩
  rw [(ended orderly).store]
  unfold requestSlotWrite
  split
  next halted =>
    have halted : s.mode = .halted := dropped.mode.symm.trans halted
    have pieces : (missPiece r .storeFault (r.serial.getD 0) u).tracker.pieces =
        s.tracker.pieces.filter fun q => q.tag != r.tag := by simp [missPiece, retireReported, dropped.pieces]
    have mode : (missPiece r .storeFault (r.serial.getD 0) u).mode = .halted := by
      have kept := (retire_mode r .frankReport (frankBody r.piece .storeFault 0 (r.serial.getD 0)) (raise .pieceMissed u)).1
      exact kept.mpr (dropped.mode.trans halted)
    have writes : (missPiece r .storeFault (r.serial.getD 0) u).funds.writes = s.funds.writes := by simp [dropped.writes]
    have committed := fun y => owed_remove .committed s.tracker.pieces r tags mem y
    have finishing := fun y => owed_remove .finishing s.tracker.pieces r tags mem y
    rw [pieces, writes, mode]
    refine ⟨fun y => ?_, fun other => absurd rfl other, fun y => ?_, fun _ => stopped halted, fun start => ?_⟩
    · have := below y
      have := committed y
      have := finishing y
      omega
    · have := closes y
      have := finishing y
      simp only [was, reduceCtorEq, false_and, if_false] at this
      omega
    · have start : s.funds.startup = .reading := by simpa [dropped.startup] using start
      exact absurd start (orderly.read_of_piece mem)
  next running =>
    have running : s.mode ≠ .halted := fun halted => running (dropped.mode.trans halted)
    have read := orderly.read_of_piece mem
    have committed := fun y => owed_change .committed s.tracker.pieces r (fun q => { q with state := .finishing }) tags mem y
    have finishing := fun y => owed_change .finishing s.tracker.pieces r (fun q => { q with state := .finishing }) tags mem y
    simp only [was, reduceCtorEq, true_and, false_and, if_false, Nat.add_zero] at committed finishing
    simp only [enqueueWrite_keeps, changeRecord_keeps, changeRecord_pieces, enqueueWrite_writes, dropped.pieces, dropped.writes,
      dropped.mode, dropped.startup, closingSerials_append, conversionSerials_append, closing, conversion, List.append_nil,
      List.count_append, List.count_singleton]
    have same := same running read
    refine ⟨fun y => ?_, fun _ _ y => ?_, fun y => ?_, fun halted => absurd halted running, fun start => absurd start read⟩
    · have := same y
      have := committed y
      have := finishing y
      omega
    · have := same y
      have := committed y
      have := finishing y
      omega
    · have := closes y
      have := finishing y
      rw [holds] at this
      simp only [beq_iff_eq]
      omega

end Sys2Proof.Machine
end

section
/-! The imprints outstanding at the completions of store writes (R72, R75, R127 to R129, R138). -/

set_option Elab.async false

namespace Sys2Proof.Machine

/-! ## Writes that concern no slot -/

/-- The notice of an open place (R126), where the store has been read. -/
theorem calm_placeNotice_of_eq {s u : State} (read : s.funds.startup ≠ .reading) (same : u.funds.startup = s.funds.startup) :
    calm u (placeNotice u) :=
  placeNotice_calm u fun start => read (same ▸ start)

/-- A write that is no slot write and no COMMIT leaves the slots and the piece count. -/
theorem apply_slots {w : StoreWrite} (slot : isSlotWrite w = false) (commit : w.isCommit = false) (free : Nat) (st : Store) :
    (st.apply free w).open0 = st.open0 ∧ (st.apply free w).open1 = st.open1 ∧ (st.apply free w).pc = st.pc := by
  cases w with
  | commit => cases commit
  | close | spoilSlot => cases slot
  | spoilVerdict | spoilUnmatched => exact append_slots _ _ _ _ _ _ st
  | credit | drain => exact ⟨rfl, rfl, rfl⟩

/-- A front write that is no slot write and no COMMIT is applied (R130, R132, R133). -/
theorem calm_completeWrite {w : StoreWrite} {rest : List StoreWrite} {s : State} (orderly : s.Orderly)
    (queue : s.funds.writes = w :: rest) (slot : isSlotWrite w = false) (commit : w.isCommit = false) :
    calm s (completeWrite w rest s) := by
  obtain ⟨running, read⟩ := orderly.settled.running (by simp [queue])
  obtain ⟨open0, open1, pc⟩ := apply_slots slot commit s.freeCount s.store
  obtain ⟨closing, conversion⟩ := noSerials w slot
  have front : s.funds.writes = [w] ++ rest := queue
  refine ⟨⟨rfl, rfl, rfl, ?_, ?_, open0, open1, pc⟩, Iff.rfl, rfl, .inr ⟨running, read⟩, fun _ mode => mode⟩
  · rw [front, closingSerials_append, closing]
    rfl
  · rw [front, conversionSerials_append, conversion]
    rfl

/-! ## A COMMIT is applied (R72, R127) -/

/-- A pledge by a record in COMMITTING. -/
theorem committing_of_pledge {r : PieceRecord} {p : PieceNo} {n : Nat} (pledge : r.pledge = some (p, true, n)) :
    r.state = .committing ∧ r.piece = p := by
  unfold PieceRecord.pledge at pledge
  split at pledge
  · simp only [Option.some.injEq, Prod.mk.injEq, beq_iff_eq] at pledge
    exact ⟨pledge.2.1, pledge.1⟩
  · cases pledge

/-- What stands when a COMMIT is applied for a record: its slot is filled with the new piece count. -/
structure Committed (r : PieceRecord) (n : Nat) (rest : List StoreWrite) (s : State) (st : Store) : Prop where
  mem : r ∈ s.tracker.pieces
  committing : r.state = .committing
  slots : ∀ y, st.openSerials.count y = s.store.openSerials.count y + if some n = y then 1 else 0
  closing : closingSerials s.funds.writes = closingSerials rest
  conversion : conversionSerials s.funds.writes = conversionSerials rest
  running : s.mode ≠ .halted
  read : s.funds.startup ≠ .reading
  serials : s.SerialsSound → s.serialAhead → st.openSerials.Nodup ∧ ∀ o ∈ st.occupied, o.serial ≤ st.pc

/-- The front COMMIT is for a record in COMMITTING, and there is a free slot for it. -/
theorem committed_of_front {postage : Nat} {piece : PieceNo} {job dateCode : Nat} {rest : List StoreWrite} {s : State}
    (orderly : s.Orderly) (queue : s.funds.writes = .commit postage piece job dateCode :: rest) :
    ∃ r, s.committing? piece = some r ∧
      Committed r (nextCount s.freeCount s.store.pc) rest s (s.store.apply s.freeCount (.commit postage piece job dateCode)) := by
  have balanced := (fundsBalanced_iff s).mp orderly.funds
  rw [queue, commitsOf_cons_commit] at balanced
  obtain ⟨r, mem, found, pledge⟩ := committing?_of_matched balanced
  obtain ⟨running, read⟩ := orderly.settled.running (by simp [queue])
  have one : s.store.occupied.length ≤ 1 := by
    have slots := ((storeSound_iff s).mp orderly.store).slots
    rw [queue, commitsIn_cons] at slots
    simp only [StoreWrite.isCommit, if_true] at slots
    omega
  obtain ⟨counts, pc, occupied⟩ := count_applyCommit s.freeCount postage job dateCode _ piece s.store one rfl
  refine ⟨r, found, mem, (committing_of_pledge pledge).1, counts, by rw [queue]; rfl, by rw [queue]; rfl, running, read,
    fun ⟨nodup, below, _⟩ ahead => ?_⟩
  have room : s.store.pc < 4294967295 := ahead.resolve_right fun never => never _ _ _ _ _ queue
  have next : nextCount s.freeCount s.store.pc = s.store.pc + 1 := if_pos room
  refine ⟨List.nodup_iff_count_le_one.mpr fun y => ?_, fun o memO => ?_⟩
  · rw [counts]
    have once := List.nodup_iff_count_le_one.mp nodup y
    split
    next same =>
      have absent : s.store.openSerials.count y = 0 := List.count_eq_zero.mpr fun there => by
        obtain ⟨o, memO, serial⟩ := List.mem_map.mp there
        have low := below o memO
        have := Option.some.inj (serial.trans same.symm)
        omega
      omega
    next => exact once
  · rw [pc]
    rcases occupied o memO with new | old
    · exact new.le
    · have := below o old
      omega

/-- The record is COMMITTED, and its entry joins the print path (first case of R72). -/
theorem onTime_settled {r : PieceRecord} {n : Nat} {rest : List StoreWrite} {s t : State} {st : Store} (orderly : s.Orderly)
    (h : Committed r n rest s st) (store : t.store = st) (writes : t.funds.writes = rest) (mode : t.mode = s.mode)
    (startup : t.funds.startup = s.funds.startup)
    (path : t.imprint.path = s.imprint.path ++ [{ serial := n, tag := r.tag, phase := .requested }])
    (pieces : t.tracker.pieces = s.tracker.pieces.map fun q =>
      if q.tag = r.tag then { q with serial := some n, state := .committed } else q) :
    t.Settled ∧ (s.SerialsSound → s.serialAhead → t.SerialsSound) := by
  obtain ⟨⟨tags, records⟩, -, same, closes, -, -⟩ := (settled_iff s).mp orderly.settled
  have old : ∀ e ∈ s.imprint.path, e.tag ≠ r.tag := fun e memE own => by
    obtain ⟨q, memQ, tagQ, committed, -⟩ := records e memE
    rw [orderly.eq_of_tag memQ h.mem (tagQ.trans own), h.committing] at committed
    cases committed
  have own : { r with serial := some n, state := .committed } ∈ t.tracker.pieces := by
    rw [pieces]
    exact List.mem_map.mpr ⟨r, h.mem, if_pos rfl⟩
  have others : ∀ q ∈ s.tracker.pieces, q.tag ≠ r.tag → q ∈ t.tracker.pieces := fun q memQ other => by
    rw [pieces]
    exact List.mem_map.mpr ⟨q, memQ, if_neg other⟩
  refine ⟨(settled_iff t).mpr ?_, fun serials ahead => ?_⟩
  · have same := same h.running h.read
    have committed := fun y => owed_change .committed s.tracker.pieces r
      (fun q => { q with serial := some n, state := .committed }) orderly.funds.1.1 h.mem y
    have finishing := fun y => owed_change .finishing s.tracker.pieces r
      (fun q => { q with serial := some n, state := .committed }) orderly.funds.1.1 h.mem y
    simp only [h.committing, reduceCtorEq, true_and, false_and, if_false, Nat.add_zero] at committed finishing
    have tally : ∀ y, owed .committed t.tracker.pieces y + owed .finishing t.tracker.pieces y +
        (conversionSerials t.funds.writes).count y = t.store.openSerials.count y := fun y => by
      rw [pieces, writes, store, h.slots, committed, finishing, ← h.conversion, ← same]
      omega
    refine ⟨⟨?_, fun e memE => ?_⟩, fun y => (tally y).le, fun _ _ => tally, fun y => ?_, ?_, ?_⟩
    · rw [path, List.map_append]
      refine List.Nodup.append tags (by simp) ?_
      simp only [List.map_cons, List.map_nil, List.disjoint_singleton, List.mem_map, not_exists, not_and]
      exact old
    · rw [path] at memE
      rcases List.mem_append.mp memE with before | new
      · obtain ⟨q, memQ, tagQ, isCommitted, serialQ⟩ := records e before
        exact ⟨q, others q memQ (tagQ ▸ old e before), tagQ, isCommitted, serialQ⟩
      · rw [List.mem_singleton.mp new]
        exact ⟨_, own, rfl, rfl, rfl⟩
    · rw [pieces, writes, finishing, ← h.closing]
      exact closes y
    · exact fun halted => absurd (mode ▸ halted) h.running
    · exact fun start => absurd (startup ▸ start) h.read
  · obtain ⟨nodup, below⟩ := h.serials serials ahead
    obtain ⟨-, -, entries⟩ := serials
    unfold State.SerialsSound
    rw [store]
    refine ⟨nodup, below, fun q memQ isCommitted => ?_⟩
    rw [pieces] at memQ
    rw [path]
    obtain ⟨p, memP, rfl⟩ := List.mem_map.mp memQ
    split at isCommitted
    next same => exact ⟨_, List.mem_append_right _ List.mem_cons_self, by rw [if_pos same]; exact same.symm⟩
    next other =>
      obtain ⟨e, memE, tag⟩ := entries p memP isCommitted
      exact ⟨e, List.mem_append_left _ memE, by rw [if_neg other]; exact tag⟩

/-- The record is FINISHING, its SPOIL LATE_COMMIT asked for (second case of R72). -/
theorem late_settled {r : PieceRecord} {n : Nat} {rest : List StoreWrite} {s t : State} {st : Store} (orderly : s.Orderly)
    (h : Committed r n rest s st) (store : t.store = st) (mode : t.mode = s.mode) (startup : t.funds.startup = s.funds.startup)
    (path : t.imprint.path = s.imprint.path) (closing : closingSerials t.funds.writes = closingSerials rest ++ [some n])
    (conversion : conversionSerials t.funds.writes = conversionSerials rest)
    (pieces : t.tracker.pieces = s.tracker.pieces.map fun q =>
      if q.tag = r.tag then { q with serial := some n, state := .finishing } else q) :
    t.Settled ∧ (s.SerialsSound → s.serialAhead → t.SerialsSound) := by
  obtain ⟨⟨tags, records⟩, -, same, closes, -, -⟩ := (settled_iff s).mp orderly.settled
  refine ⟨(settled_iff t).mpr ?_, fun serials ahead => ?_⟩
  · have same := same h.running h.read
    have committed := fun y => owed_change .committed s.tracker.pieces r
      (fun q => { q with serial := some n, state := .finishing }) orderly.funds.1.1 h.mem y
    have finishing := fun y => owed_change .finishing s.tracker.pieces r
      (fun q => { q with serial := some n, state := .finishing }) orderly.funds.1.1 h.mem y
    simp only [h.committing, reduceCtorEq, true_and, false_and, if_false, Nat.add_zero] at committed finishing
    have tally : ∀ y, owed .committed t.tracker.pieces y + owed .finishing t.tracker.pieces y +
        (conversionSerials t.funds.writes).count y = t.store.openSerials.count y := fun y => by
      rw [pieces, conversion, store, h.slots, committed, finishing, ← h.conversion, ← same]
      omega
    refine ⟨⟨by rwa [path], fun e memE => ?_⟩, fun y => (tally y).le, fun _ _ => tally, fun y => ?_, ?_, ?_⟩
    · rw [path] at memE
      obtain ⟨q, memQ, tagQ, isCommitted, serialQ⟩ := records e memE
      refine ⟨q, ?_, tagQ, isCommitted, serialQ⟩
      rw [pieces]
      refine List.mem_map.mpr ⟨q, memQ, if_neg fun own => ?_⟩
      rw [orderly.eq_of_tag memQ h.mem own, h.committing] at isCommitted
      cases isCommitted
    · have := closes y
      rw [pieces, closing, List.count_append, finishing, List.count_singleton, ← h.closing]
      simp only [beq_iff_eq]
      omega
    · exact fun halted => absurd (mode ▸ halted) h.running
    · exact fun start => absurd (startup ▸ start) h.read
  · obtain ⟨nodup, below⟩ := h.serials serials ahead
    obtain ⟨-, -, entries⟩ := serials
    unfold State.SerialsSound
    rw [store, path]
    refine ⟨nodup, below, fun q memQ isCommitted => ?_⟩
    rw [pieces] at memQ
    obtain ⟨p, memP, rfl⟩ := List.mem_map.mp memQ
    split at isCommitted
    next => cases isCommitted
    next other =>
      rw [if_neg other]
      exact entries p memP isCommitted

/-- The state in which the COMMIT for a record has just been applied. -/
structure Applied (st : Store) (rest : List StoreWrite) (s u : State) : Prop where
  store : u.store = st := by simp
  writes : u.funds.writes = rest := by simp
  mode : u.mode = s.mode := by simp
  startup : u.funds.startup = s.funds.startup := by simp
  path : u.imprint.path = s.imprint.path := by simp
  pieces : u.tracker.pieces = s.tracker.pieces := by simp

/-- The claim of StoreKept about the imprints outstanding, of one state after another. -/
def imprintsKept (s t : State) : Prop :=
  t.Settled ∧ (s.SerialsSound → s.serialAhead → t.SerialsSound)

/-- A calm operation after. -/
theorem imprintsKept_calm {s t u : State} (h : imprintsKept s t) (quiet : calm t u) : imprintsKept s u :=
  ⟨calm_settled quiet h.1, fun serials ahead => calm_serialsSound quiet (h.2 serials ahead)⟩

/-- A COMMIT completed on time (first case of R72). -/
theorem commitOnTime_kept {r : PieceRecord} {o : OpenImprint} {rest : List StoreWrite} {s u : State} {st : Store}
    (orderly : s.Orderly) (filled : Committed r o.serial rest s st) (applied : Applied st rest s u) :
    imprintsKept s (commitOnTime r o u) := by
  have entered : ∀ (v : State), v.store = st → v.funds.writes = rest → v.mode = s.mode → v.funds.startup = s.funds.startup →
      v.imprint.path = s.imprint.path ++ [{ serial := o.serial, tag := r.tag, phase := .requested }] →
      (v.tracker.pieces = s.tracker.pieces.map fun q =>
        if q.tag = r.tag then { q with serial := some o.serial, state := .committed } else q) →
      ∀ m, imprintsKept s (placeNotice (sendEngine m v)) := fun v store writes mode startup path pieces m => by
    have kept : imprintsKept s v := onTime_settled orderly filled store writes mode startup path pieces
    exact imprintsKept_calm (imprintsKept_calm kept (sendEngine_calm _ _))
      (calm_placeNotice_of_eq filled.read (by simpa using startup))
  let v := changeRecord r.tag (fun x => { x with serial := some o.serial, state := .committed }) u
  refine entered { v with imprint := { v.imprint with
    path := v.imprint.path ++ [{ serial := o.serial, tag := r.tag, phase := .requested }] } }
    applied.store applied.writes applied.mode applied.startup ?_ ?_ _
  · rw [← applied.path]
    rfl
  · rw [← applied.pieces]
    rfl

/-- The late request, where the head is not HALTED. -/
theorem lateRequest_kept {r : PieceRecord} {o : OpenImprint} {rest : List StoreWrite} {s u : State} {st : Store}
    (orderly : s.Orderly) (filled : Committed r o.serial rest s st) (store : u.store = st) (mode : u.mode = s.mode)
    (startup : u.funds.startup = s.funds.startup) (path : u.imprint.path = s.imprint.path)
    (closing : closingSerials u.funds.writes = closingSerials rest)
    (conversion : conversionSerials u.funds.writes = conversionSerials rest)
    (pieces : u.tracker.pieces = s.tracker.pieces.map fun q =>
      if q.tag = r.tag then { q with serial := some o.serial } else q) :
    imprintsKept s (requestSlotWrite { r with serial := some o.serial } (.spoilSlot o.serial .lateCommit) u) := by
  rw [requestSlotWrite, if_neg (fun halted => filled.running (mode ▸ halted))]
  refine late_settled orderly filled store mode startup path ?_ ?_ ?_
  · show closingSerials (u.funds.writes ++ [.spoilSlot o.serial .lateCommit]) = _
    rw [closingSerials_append, closing]
    rfl
  · show conversionSerials (u.funds.writes ++ [.spoilSlot o.serial .lateCommit]) = _
    rw [conversionSerials_append, conversion]
    exact List.append_nil _
  · have again := congrArg Tracker.pieces (congrArg State.tracker
      (changeRecord_again (tag := r.tag) (fun q => { q with serial := some o.serial }) (fun q => { q with state := .finishing })
        (s := s) (u := { u with tracker := (changeRecord r.tag (fun q => { q with serial := some o.serial }) s).tracker }) rfl
        fun _ => rfl))
    show u.tracker.pieces.map _ = _
    rw [pieces]
    exact again

/-- A COMMIT completed late (second case of R72): the notice of a place comes before or after the request. -/
theorem commitLate_kept {r : PieceRecord} {o : OpenImprint} {rest : List StoreWrite} {s u : State} {st : Store}
    (orderly : s.Orderly) (filled : Committed r o.serial rest s st) (applied : Applied st rest s u) :
    imprintsKept s (commitLate r o u) := by
  let t := changeRecord r.tag (fun x => { x with serial := some o.serial }) { u with freeCount := u.freeCount + 1 }
  have read : t.funds.startup ≠ .reading := fun start => filled.read (applied.startup ▸ start)
  have pieces : t.tracker.pieces = s.tracker.pieces.map fun q => if q.tag = r.tag then { q with serial := some o.serial } else q := by
    rw [← applied.pieces]
    rfl
  obtain ⟨⟨-, -, -, closing, conversion, -⟩, -⟩ := placeNotice_calm t read
  unfold commitLate
  dsimp only
  split
  · obtain ⟨-, mode, -, -, tracker, -, -, store, -, startup, -, -, -, -, imprint, -⟩ := placeNotice_keeps t
    exact lateRequest_kept orderly filled (store.trans applied.store) (mode.trans applied.mode) (startup.trans applied.startup)
      ((congrArg Imprint.path imprint).trans applied.path) (closing.trans (by rw [← applied.writes]; rfl))
      (conversion.trans (by rw [← applied.writes]; rfl)) ((congrArg Tracker.pieces tracker).trans pieces)
  · have kept := lateRequest_kept (u := t) orderly filled applied.store applied.mode applied.startup applied.path
      (by rw [← applied.writes]; rfl) (by rw [← applied.writes]; rfl) pieces
    exact imprintsKept_calm kept (placeNotice_calm _ (by simpa using read))

/-- A COMMIT completes (R72, R127). -/
theorem keepsImprints_commitComplete {postage : Nat} {piece : PieceNo} {job dateCode : Nat} {rest : List StoreWrite} {s : State}
    (queue : s.funds.writes = .commit postage piece job dateCode :: rest) :
    KeepsImprints s (commitComplete postage piece job dateCode rest s) := by
  have kept : s.Orderly → imprintsKept s (commitComplete postage piece job dateCode rest s) := fun orderly => by
    obtain ⟨r, found, filled⟩ := committed_of_front orderly queue
    have found' : (lowerPledge postage (completeWrite (.commit postage piece job dateCode) rest s)).committing? piece = some r :=
      found
    unfold commitComplete
    dsimp only
    rw [found']
    dsimp only
    split
    · exact commitLate_kept orderly filled { store := rfl, writes := rfl, mode := rfl, startup := rfl, path := rfl, pieces := rfl }
    · exact commitOnTime_kept orderly filled { store := rfl, writes := rfl, mode := rfl, startup := rfl, path := rfl, pieces := rfl }
  exact ⟨fun orderly => (kept orderly).1, fun orderly => (kept orderly).2⟩

end Sys2Proof.Machine
end

section
/-! The imprints outstanding at the completions of CLOSE writes and of spoils from a slot (R75, R128, R129, R138). -/

set_option Elab.async false

namespace Sys2Proof.Machine

/-! ## A slot emptied -/

/-- What stands when the slot of a serial has been emptied, with one answering for it less. -/
structure SlotEmptied (x : Nat) (s t : State) : Prop where
  path : t.imprint.path = s.imprint.path
  committed : ∀ q, q.state = .committed → (q ∈ t.tracker.pieces ↔ q ∈ s.tracker.pieces)
  tally : ∀ y, owed .committed t.tracker.pieces y + owed .finishing t.tracker.pieces y + (conversionSerials t.funds.writes).count y +
    (if some x = y then 1 else 0) =
      owed .committed s.tracker.pieces y + owed .finishing s.tracker.pieces y + (conversionSerials s.funds.writes).count y
  closes : ∀ y, (closingSerials t.funds.writes).count y = owed .finishing t.tracker.pieces y
  slots : ∀ y, t.store.openSerials.count y + (if some x = y then 1 else 0) = s.store.openSerials.count y
  occupied : ∀ o ∈ t.store.occupied, o ∈ s.store.occupied
  pc : t.store.pc = s.store.pc
  running : t.mode ≠ .halted
  read : t.funds.startup ≠ .reading

/-- The imprints outstanding go on as they were but for that slot. -/
theorem SlotEmptied.kept {x : Nat} {s t : State} (h : SlotEmptied x s t) (orderly : s.Orderly) (queue : s.funds.writes ≠ []) :
    imprintsKept s t := by
  obtain ⟨⟨tags, records⟩, -, same, -, -, -⟩ := (settled_iff s).mp orderly.settled
  obtain ⟨running, read⟩ := orderly.settled.running queue
  refine ⟨(settled_iff t).mpr ?_, fun ⟨nodup, below, entries⟩ _ => ?_⟩
  · have tally : ∀ y, owed .committed t.tracker.pieces y + owed .finishing t.tracker.pieces y +
        (conversionSerials t.funds.writes).count y = t.store.openSerials.count y := fun y => by
      have before := same running read y
      have changed := h.tally y
      have slots := h.slots y
      omega
    refine ⟨⟨h.path ▸ tags, fun e mem => ?_⟩, fun y => (tally y).le, fun _ _ => tally, h.closes,
      fun halted => absurd halted h.running, fun start => absurd start h.read⟩
    obtain ⟨q, memQ, tag, committed, serial⟩ := records e (h.path ▸ mem)
    exact ⟨q, (h.committed q committed).mpr memQ, tag, committed, serial⟩
  · refine ⟨List.nodup_iff_count_le_one.mpr fun y => ?_, fun o mem => h.pc ▸ below o (h.occupied o mem), fun q mem committed => ?_⟩
    · have once := List.nodup_iff_count_le_one.mp nodup y
      have slots := h.slots y
      omega
    · rw [h.path]
      exact entries q ((h.committed q committed).mp mem) committed

/-- A serial that one answers for stands in a slot. -/
theorem State.Orderly.open_of_answered {s : State} (h : s.Orderly) {x : Option Nat}
    (answered : 0 < owed .finishing s.tracker.pieces x + (conversionSerials s.funds.writes).count x) : x ∈ s.store.openSerials := by
  obtain ⟨-, below, -⟩ := (settled_iff s).mp h.settled
  refine List.count_pos_iff.mp ?_
  have held := below x
  omega

/-- A store whose two slots are those of a store with the slot of a serial emptied. -/
structure Vacated (x : Nat) (before after : Store) : Prop where
  slots : some x ∈ before.openSerials → ∀ y, after.openSerials.count y + (if some x = y then 1 else 0) = before.openSerials.count y
  occupied : ∀ o ∈ after.occupied, o ∈ before.occupied
  serials : after.openSerials.Sublist before.openSerials
  pc : after.pc = before.pc

/-- A CLOSE empties the slot of its serial (R128). -/
theorem vacated_close (x : Nat) (st : Store) : Vacated x st (st.vacate x) where
  slots held := count_vacate x st held
  occupied _ mem := (vacate_occupied x st).1.subset mem
  serials := (vacate_occupied x st).1.map _
  pc := (vacate_occupied x st).2

/-- So does a SPOIL from the slot (R129). -/
theorem vacated_spoil (x : Nat) (reason : SpoilReason) (st : Store) : Vacated x st (st.applySpoilSlot x reason) := by
  unfold Store.applySpoilSlot
  cases found : st.openOf x with
  | none =>
    refine ⟨fun held => ?_, fun _ mem => mem, List.Sublist.refl _, rfl⟩
    obtain ⟨o, mem, serial⟩ := List.mem_map.mp held
    have absent := List.find?_eq_none.mp found o mem
    simp [Option.some.inj serial] at absent
  | some o =>
    obtain ⟨first, second, pc⟩ := append_slots reason o.piece (some o.serial) (some o.value) (some o.job) (some o.dateCode)
      (st.vacate x)
    have occupied := openSerials_of_eq first second
    have closed := vacated_close x st
    refine ⟨fun held y => ?_, ?_, ?_, pc.trans closed.pc⟩
    · rw [Store.openSerials, occupied]
      exact closed.slots held y
    · rw [occupied]
      exact closed.occupied
    · rw [Store.openSerials, occupied]
      exact closed.serials

/-! ## The record of a serial retires (R75) -/

/-- What a state is when the front slot write of a FINISHING record has been applied and the record retired. -/
structure RecordClosed (r : PieceRecord) (x : Nat) (rest : List StoreWrite) (s t : State) : Prop where
  pieces : t.tracker.pieces = s.tracker.pieces.filter fun q => q.tag != r.tag
  path : t.imprint.path = s.imprint.path
  store : Vacated x s.store t.store
  writes : t.funds.writes = rest
  running : t.mode = .halted → s.mode = .halted
  startup : t.funds.startup = s.funds.startup

/-- The slot of a retired record has been emptied. -/
theorem RecordClosed.emptied {r : PieceRecord} {x : Nat} {w : StoreWrite} {rest : List StoreWrite} {s t : State}
    (h : RecordClosed r x rest s t) (orderly : s.Orderly) (queue : s.funds.writes = w :: rest)
    (closing : closingSerials [w] = [some x]) (conversion : conversionSerials [w] = []) (mem : r ∈ s.tracker.pieces)
    (finishing : r.state = .finishing) (serial : r.serial = some x) : SlotEmptied x s t := by
  obtain ⟨-, -, -, closes, -, -⟩ := (settled_iff s).mp orderly.settled
  obtain ⟨running, read⟩ := orderly.settled.running (by simp [queue])
  have front : s.funds.writes = [w] ++ rest := queue
  have conversions : conversionSerials s.funds.writes = conversionSerials rest := by
    rw [front, conversionSerials_append, conversion, List.nil_append]
  have closings : closingSerials s.funds.writes = some x :: closingSerials rest := by
    rw [front, closingSerials_append, closing, List.singleton_append]
  have committedOwed := fun y => owed_remove .committed s.tracker.pieces r orderly.funds.1.1 mem y
  have finishingOwed := fun y => owed_remove .finishing s.tracker.pieces r orderly.funds.1.1 mem y
  simp only [finishing, serial, reduceCtorEq, true_and, false_and, if_false, Nat.add_zero] at committedOwed finishingOwed
  have answered : 0 < owed .finishing s.tracker.pieces (some x) := serial ▸ owed_pos mem finishing
  refine ⟨h.path, fun q committed => ?_, fun y => ?_, fun y => ?_, h.store.slots (orderly.open_of_answered (by omega)),
    h.store.occupied, h.store.pc, fun halted => running (h.running halted), fun start => read (h.startup ▸ start)⟩
  · rw [h.pieces, List.mem_filter]
    refine ⟨And.left, fun there => ⟨there, bne_iff_ne.mpr fun same => ?_⟩⟩
    rw [orderly.eq_of_tag there mem same, finishing] at committed
    cases committed
  · rw [h.pieces, h.writes, conversions, committedOwed, ← finishingOwed]
    omega
  · have before := closes y
    rw [closings, List.count_cons, ← finishingOwed y] at before
    rw [h.pieces, h.writes]
    simp only [beq_iff_eq] at before
    omega

/-- The front slot write of a record has its record in FINISHING. -/
theorem State.Orderly.finishing_of_front {s : State} (h : s.Orderly) {w : StoreWrite} {rest : List StoreWrite} {x : Nat}
    (queue : s.funds.writes = w :: rest) (closing : closingSerials [w] = [some x]) :
    ∃ r ∈ s.tracker.pieces, s.serial? x .finishing = some r ∧ r.state = .finishing ∧ r.serial = some x := by
  obtain ⟨-, -, -, closes, -, -⟩ := (settled_iff s).mp h.settled
  have front : s.funds.writes = [w] ++ rest := queue
  have count := closes (some x)
  rw [front, closingSerials_append, closing, List.singleton_append, List.count_cons_self] at count
  obtain ⟨q, memQ, finishing, serial⟩ := exists_of_owed (state := .finishing) (pieces := s.tracker.pieces) (y := some x) (by omega)
  obtain ⟨r, found⟩ : ∃ r, s.serial? x .finishing = some r :=
    Option.isSome_iff_exists.mp (List.find?_isSome.mpr ⟨q, memQ, by simp [finishing, serial]⟩)
  have holds := List.find?_some found
  simp only [Bool.and_eq_true, beq_iff_eq] at holds
  exact ⟨r, List.mem_of_find?_eq_some found, found, holds.2, holds.1⟩

/-- A retirement after the write has been applied. -/
theorem recordClosed_retire {r : PieceRecord} {x : Nat} {rest : List StoreWrite} {s v : State} (kind : FrameKind) (body : List Byte)
    (pieces : v.tracker.pieces = s.tracker.pieces) (path : v.imprint.path = s.imprint.path) (store : Vacated x s.store v.store)
    (writes : v.funds.writes = rest) (mode : v.mode = s.mode) (startup : v.funds.startup = s.funds.startup) :
    RecordClosed r x rest s (retire r kind body v) := by
  refine ⟨(retire_pieces r kind body v).trans (by rw [pieces]), ?_, ?_, ?_, fun halted => ?_, ?_⟩
  · simpa using path
  · simpa using store
  · simpa using writes
  · exact mode ▸ (retire_mode r kind body v).1.mp halted
  · simpa using startup

/-- A claim of what is kept from an orderly state. -/
theorem keepsImprints_of_kept {s t : State} (kept : s.Orderly → imprintsKept s t) : KeepsImprints s t :=
  ⟨fun orderly => (kept orderly).1, fun orderly => (kept orderly).2⟩

/-- A CLOSE completes (R75, R128). -/
theorem keepsImprints_closeComplete {serial : Nat} {rest : List StoreWrite} {s : State}
    (queue : s.funds.writes = .close serial :: rest) : KeepsImprints s (closeComplete serial rest s) := by
  refine keepsImprints_of_kept fun orderly => ?_
  obtain ⟨-, read⟩ := orderly.settled.running (by simp [queue])
  obtain ⟨r, mem, found, finishing, holds⟩ := orderly.finishing_of_front queue rfl
  have found' : (completeWrite (.close serial) rest s).serial? serial .finishing = some r := found
  have closed : RecordClosed r serial rest s (finishFranked r serial (completeWrite (.close serial) rest s)) :=
    recordClosed_retire .frankReport (frankBody r.piece .franked r.postage serial) rfl rfl (vacated_close serial s.store) rfl rfl rfl
  have kept := (closed.emptied orderly queue rfl rfl mem finishing holds).kept orderly (by simp [queue])
  unfold closeComplete
  dsimp only
  rw [found']
  exact imprintsKept_calm kept (calm_placeNotice_of_eq read closed.startup)

/-- A SPOIL from a slot completes for a record (R75, R129). -/
theorem spoilSlotComplete_kept_of_record {serial : Nat} {reason : SpoilReason} {rest : List StoreWrite} {s : State}
    (orderly : s.Orderly) (queue : s.funds.writes = .spoilSlot serial reason :: rest) (record : reason ≠ .unconfirmed) :
    imprintsKept s (spoilSlotComplete serial reason rest s) := by
  obtain ⟨-, read⟩ := orderly.settled.running (by simp [queue])
  have closing : closingSerials [.spoilSlot serial reason] = [some serial] := by simp [closingSerials, record]
  have conversion : conversionSerials [.spoilSlot serial reason] = [] := by simp [conversionSerials, record]
  obtain ⟨r, mem, found, finishing, holds⟩ := orderly.finishing_of_front queue closing
  let t := judgeSpoils s.store.spoils.length (completeWrite (.spoilSlot serial reason) rest s)
  have found' : t.serial? serial .finishing = some r := by
    have tracker : t.tracker = s.tracker := by simp only [t, judgeSpoils_keeps]; rfl
    unfold State.serial?
    rw [tracker]
    exact found
  have closed : RecordClosed r serial rest s (retireReported r (spoilCause reason) 0 serial t) := by
    have store : Vacated serial s.store t.store := by
      simp only [t, judgeSpoils_keeps]
      exact vacated_spoil serial reason s.store
    refine recordClosed_retire .frankReport (frankBody r.piece (spoilCause reason) 0 serial) ?_ ?_ store ?_ ?_ ?_
    all_goals simp [t, completeWrite]
  have kept := (closed.emptied orderly queue closing conversion mem finishing holds).kept orderly (by simp [queue])
  unfold spoilSlotComplete finishSpoiled
  dsimp only
  rw [if_neg record, found']
  exact imprintsKept_calm kept (calm_placeNotice_of_eq read closed.startup)

/-- A SPOIL of the conversion completes (R129, R138). -/
theorem spoilSlotComplete_kept_of_conversion {serial : Nat} {rest : List StoreWrite} {s : State}
    (orderly : s.Orderly) (queue : s.funds.writes = .spoilSlot serial .unconfirmed :: rest) :
    imprintsKept s (spoilSlotComplete serial .unconfirmed rest s) := by
  obtain ⟨running, read⟩ := orderly.settled.running (by simp [queue])
  obtain ⟨-, -, -, closes, -, -⟩ := (settled_iff s).mp orderly.settled
  have front : s.funds.writes = [.spoilSlot serial .unconfirmed] ++ rest := queue
  have conversions : conversionSerials s.funds.writes = some serial :: conversionSerials rest := by
    rw [front, conversionSerials_append]
    rfl
  have closings : closingSerials s.funds.writes = closingSerials rest := by
    rw [front, closingSerials_append]
    rfl
  let u := judgeSpoils s.store.spoils.length (completeWrite (.spoilSlot serial .unconfirmed) rest s)
  obtain ⟨same, -, goes⟩ := continueConversion_eq u
  have startup : (continueConversion u).funds.startup ≠ .reading := by
    have uStartup : u.funds.startup = s.funds.startup := by simp [u, completeWrite]
    unfold continueConversion
    split
    · simp
    · exact uStartup ▸ read
  have emptied : SlotEmptied serial s (continueConversion u) := by
    have pieces : (continueConversion u).tracker.pieces = s.tracker.pieces := by
      rw [same]
      simp [u, completeWrite]
    have writes : (continueConversion u).funds.writes = rest := by
      rw [same]
      simp [u, completeWrite]
    have store : Vacated serial s.store (continueConversion u).store := by
      have store : (continueConversion u).store = s.store.applySpoilSlot serial .unconfirmed := by
        rw [same]
        simp [u, completeWrite, Store.apply]
      rw [store]
      exact vacated_spoil serial .unconfirmed s.store
    refine ⟨?_, fun q _ => by rw [pieces], fun y => ?_, fun y => ?_, store.slots (orderly.open_of_answered ?_), store.occupied,
      store.pc, ?_, startup⟩
    · rw [same]
      simp [u, completeWrite]
    · rw [pieces, writes, conversions, List.count_cons]
      simp only [beq_iff_eq]
      omega
    · rw [pieces, writes, ← closings]
      exact closes y
    · rw [conversions, List.count_cons_self]
      omega
    · rw [same]
      simpa [u, completeWrite] using running
  unfold spoilSlotComplete
  exact imprintsKept_calm (emptied.kept orderly (by simp [queue])) (placeNotice_calm _ startup)

/-- A SPOIL from a slot completes (R129). -/
theorem keepsImprints_spoilSlotComplete {serial : Nat} {reason : SpoilReason} {rest : List StoreWrite} {s : State}
    (queue : s.funds.writes = .spoilSlot serial reason :: rest) : KeepsImprints s (spoilSlotComplete serial reason rest s) := by
  refine keepsImprints_of_kept fun orderly => ?_
  by_cases conversion : reason = .unconfirmed
  · subst conversion
    exact spoilSlotComplete_kept_of_conversion orderly queue
  · exact spoilSlotComplete_kept_of_record orderly queue conversion

end Sys2Proof.Machine
end

section
/-! The imprints outstanding at a failure of the store, at the start-up read, and at a restart (R134 to R138). -/

set_option Elab.async false

namespace Sys2Proof.Machine

/-! ## The queue fails (R134) -/

/-- What stands while the writes `ws` of the queue of a state are still to fail. -/
structure Failing (ws : List StoreWrite) (s u : State) : Prop where
  keeps : failKeeps s.storeFailing u
  startup : u.funds.startup = s.funds.startup
  tags : (u.tracker.pieces.map PieceRecord.tag).Nodup
  committed : ∀ q, q.state = .committed → (q ∈ u.tracker.pieces ↔ q ∈ s.tracker.pieces)
  below : ∀ y, owed .committed u.tracker.pieces y + owed .finishing u.tracker.pieces y ≤ s.store.openSerials.count y
  closes : ∀ y, (closingSerials ws).count y = owed .finishing u.tracker.pieces y

/-- A failed write that changes no record. -/
theorem Failing.same {w : StoreWrite} {ws : List StoreWrite} {s u v : State} (h : Failing (w :: ws) s u)
    (keeps : failKeeps s.storeFailing v) (startup : v.funds.startup = u.funds.startup)
    (pieces : v.tracker.pieces = u.tracker.pieces) (closing : closingSerials [w] = []) : Failing ws s v := by
  have closes := h.closes
  rw [← List.singleton_append, closingSerials_append, closing, List.nil_append] at closes
  exact ⟨keeps, startup.trans h.startup, pieces ▸ h.tags, pieces ▸ h.committed, pieces ▸ h.below, pieces ▸ closes⟩

/-- A failed write that gives up a record that is not COMMITTED. -/
theorem Failing.removed {w : StoreWrite} {ws : List StoreWrite} {s u v : State} {r : PieceRecord} (h : Failing (w :: ws) s u)
    (keeps : failKeeps s.storeFailing v) (startup : v.funds.startup = u.funds.startup) (mem : r ∈ u.tracker.pieces)
    (pieces : v.tracker.pieces = u.tracker.pieces.filter fun q => q.tag != r.tag) (other : r.state ≠ .committed)
    (closing : ∀ y, (closingSerials [w]).count y = if r.state = .finishing ∧ r.serial = y then 1 else 0) : Failing ws s v := by
  have committed := fun y => owed_remove .committed u.tracker.pieces r h.tags mem y
  have finishing := fun y => owed_remove .finishing u.tracker.pieces r h.tags mem y
  refine ⟨keeps, startup.trans h.startup, ?_, fun q isCommitted => ?_, fun y => ?_, fun y => ?_⟩
  · rw [pieces]
    exact h.tags.sublist (List.filter_sublist.map _)
  · rw [pieces, List.mem_filter, ← h.committed q isCommitted]
    refine ⟨And.left, fun there => ⟨there, bne_iff_ne.mpr fun same => ?_⟩⟩
    rw [List.inj_on_of_nodup_map h.tags there mem same] at isCommitted
    exact other isCommitted
  · rw [pieces]
    have before := h.below y
    have := committed y
    have := finishing y
    omega
  · rw [pieces]
    have before := h.closes y
    have := finishing y
    rw [← List.singleton_append, closingSerials_append, List.count_append, closing] at before
    omega

/-- A piece given up leaves the start-up state. -/
theorem missPiece_startup (r : PieceRecord) (cause : FrankCause) (serial : Nat) (u : State) :
    (missPiece r cause serial u).funds.startup = u.funds.startup := by
  simp

/-- A failed COMMIT. -/
theorem Failing.commit {postage : Nat} {piece : PieceNo} {job dateCode : Nat} {ws : List StoreWrite} {s u : State}
    (h : Failing (.commit postage piece job dateCode :: ws) s u) : Failing ws s (failCommit postage piece u) := by
  have keeps := failKeeps_trans h.keeps (failWrite_keeps u (.commit postage piece job dateCode) (failKeeps_again h.keeps))
  unfold failWrite at keeps
  dsimp only at keeps
  have pieces : (judgeFunds (lowerPledge postage u)).tracker.pieces = u.tracker.pieces := by simp
  have startup : (judgeFunds (lowerPledge postage u)).funds.startup = u.funds.startup := by simp
  unfold failCommit at keeps ⊢
  dsimp only at keeps ⊢
  cases found : (judgeFunds (lowerPledge postage u)).committing? piece with
  | none =>
    rw [found] at keeps
    exact h.same keeps startup pieces rfl
  | some r =>
    rw [found] at keeps
    have holds := List.find?_some found
    simp only [Bool.and_eq_true, beq_iff_eq] at holds
    refine h.removed keeps ((missPiece_startup _ _ _ _).trans startup) (pieces ▸ List.mem_of_find?_eq_some found)
      (by simp [missPiece, retireReported]) (by simp [holds.2]) fun y => ?_
    rw [if_neg (by simp [holds.2])]
    rfl

/-- A failed slot write of a record. -/
theorem Failing.slot {w : StoreWrite} {x : Nat} {ws : List StoreWrite} {s u : State} (h : Failing (w :: ws) s u)
    (fails : failWrite u w = failSlotWrite x u) (closing : closingSerials [w] = [some x]) : Failing ws s (failWrite u w) := by
  have keeps := failKeeps_trans h.keeps (failWrite_keeps u w (failKeeps_again h.keeps))
  have count := h.closes (some x)
  rw [← List.singleton_append, closingSerials_append, closing, List.singleton_append, List.count_cons_self] at count
  obtain ⟨q, memQ, isFinishing, serialQ⟩ := exists_of_owed (state := .finishing) (pieces := u.tracker.pieces) (y := some x) (by omega)
  obtain ⟨r, mem, finishing, serial, pieces⟩ := failSlotWrite_pieces x u ⟨q, memQ, isFinishing, serialQ⟩
  have startup : (failWrite u w).funds.startup = u.funds.startup := by
    rw [fails]
    unfold failSlotWrite
    split
    · rfl
    · exact missPiece_startup _ _ _ _
  refine h.removed keeps startup mem (by rw [fails]; exact pieces) (by simp [finishing]) fun y => ?_
  rw [closing, List.count_singleton]
  simp only [finishing, serial, true_and, beq_iff_eq]

/-- One write fails. -/
theorem Failing.step {w : StoreWrite} {ws : List StoreWrite} {s u : State} (h : Failing (w :: ws) s u) :
    Failing ws s (failWrite u w) := by
  have keeps := failKeeps_trans h.keeps (failWrite_keeps u w (failKeeps_again h.keeps))
  cases w with
  | commit => exact h.commit
  | close serial => exact h.slot rfl rfl
  | spoilSlot serial reason =>
    by_cases conversion : reason = .unconfirmed
    · subst conversion
      exact h.same keeps rfl rfl rfl
    · exact h.slot (if_neg conversion) (by simp [closingSerials, conversion])
  | spoilVerdict => exact h.same keeps rfl rfl rfl
  | spoilUnmatched piece =>
    have held : failWrite u (.spoilUnmatched piece) = _ := holdUnmatched_eq piece u
    exact h.same keeps (by rw [held]) (by rw [held]) rfl
  | credit | drain => exact h.same keeps rfl rfl rfl

/-- The writes fail one after another. -/
theorem Failing.all {ws : List StoreWrite} {s u : State} (h : Failing ws s u) : Failing [] s (ws.foldl failWrite u) := by
  induction ws generalizing u with
  | nil => exact h
  | cons w ws ih => exact ih h.step

/-- The front write fails, and with it the queue (R134). -/
theorem keepsImprints_failStore (s : State) : KeepsImprints s (failStore s) := by
  refine keepsImprints_of_kept fun orderly => ?_
  by_cases writing : s.funds.writes = []
  · have none : failStore s = s := by
      unfold failStore
      rw [writing]
    rw [none]
    exact ⟨orderly.settled, fun serials _ => serials⟩
  · obtain ⟨running, read⟩ := orderly.settled.running writing
    obtain ⟨⟨tags, records⟩, below, -, closes, -, -⟩ := (settled_iff s).mp orderly.settled
    have start : Failing s.funds.writes s s.storeFailing := ⟨storeFailing_failKeeps s, rfl, orderly.funds.1.1, fun _ _ => Iff.rfl,
      fun y => le_trans (Nat.le_add_right _ _) (below y), closes⟩
    have failed := start.all
    rw [failStore_eq writing]
    obtain ⟨mode, -, -, store, writes, -, -, imprint, -⟩ := failed.keeps
    have startup := failed.startup
    have store : _ = s.store := store
    have path := congrArg Imprint.path imprint
    refine ⟨(settled_iff _).mpr ⟨⟨path ▸ tags, fun e mem => ?_⟩, fun y => ?_, fun runs => absurd mode runs, fun y => ?_,
      fun _ => writes, fun starts => absurd (startup ▸ starts) read⟩, fun ⟨nodup, low, entries⟩ _ => ?_⟩
    · obtain ⟨q, memQ, tag, committed, serial⟩ := records e (path ▸ mem)
      exact ⟨q, (failed.committed q committed).mpr memQ, tag, committed, serial⟩
    · rw [writes, store]
      exact failed.below y
    · rw [writes]
      exact failed.closes y
    · unfold State.SerialsSound
      rw [store]
      refine ⟨nodup, low, fun q mem committed => ?_⟩
      rw [path]
      exact entries q ((failed.committed q committed).mp mem) committed

/-! ## The start-up read (R137, R138) -/

/-- While the store is being read no piece is held and no imprint is outstanding. -/
theorem State.Orderly.reading {s : State} (h : s.Orderly) (reading : s.funds.startup = .reading) :
    s.mode = .setup ∧ s.tracker.pieces = [] ∧ s.funds.writes = [] ∧ s.imprint.path = [] := by
  obtain ⟨⟨-, records⟩, -, -, -, start⟩ := h.settled
  obtain ⟨setup, writes⟩ := start reading
  obtain ⟨empty, -⟩ := h.modes.holds
  have pieces := empty (.inl setup)
  refine ⟨setup, pieces, writes, List.eq_nil_iff_forall_not_mem.mpr fun e mem => ?_⟩
  obtain ⟨q, memQ, -⟩ := records e mem
  rw [pieces] at memQ
  cases memQ

/-- A state with no piece and no imprint, by its conversion writes. -/
theorem imprintsKept_of_empty {s t : State} (pieces : t.tracker.pieces = []) (path : t.imprint.path = [])
    (closing : closingSerials t.funds.writes = [])
    (below : ∀ y, (conversionSerials t.funds.writes).count y ≤ t.store.openSerials.count y)
    (same : t.mode ≠ .halted → t.funds.startup ≠ .reading →
      ∀ y, (conversionSerials t.funds.writes).count y = t.store.openSerials.count y)
    (halted : t.mode = .halted → t.funds.writes = []) (reading : t.funds.startup = .reading → t.mode = .setup ∧ t.funds.writes = [])
    (serials : s.SerialsSound → s.serialAhead → t.store.openSerials.Nodup ∧ ∀ o ∈ t.store.occupied, o.serial ≤ t.store.pc) :
    imprintsKept s t := by
  have none : ∀ state y, owed state t.tracker.pieces y = 0 := fun state y => by
    rw [pieces]
    rfl
  refine ⟨(settled_iff t).mpr ⟨?_, fun y => ?_, fun runs read y => ?_, fun y => ?_, halted, reading⟩, fun sound ahead => ?_⟩
  · unfold State.PathSound
    rw [path]
    exact ⟨List.nodup_nil, fun e mem => by cases mem⟩
  · rw [none, none]
    simpa using below y
  · rw [none, none]
    simpa using same runs read y
  · rw [none, closing]
    rfl
  · obtain ⟨nodup, low⟩ := serials sound ahead
    exact ⟨nodup, low, fun q mem => by rw [pieces] at mem; cases mem⟩

/-- A good start-up read (R137, R138). -/
theorem keepsImprints_readGood {s : State} (reading : s.funds.startup = .reading) : KeepsImprints s (readGood s) := by
  refine keepsImprints_of_kept fun orderly => ?_
  obtain ⟨setup, pieces, writes, path⟩ := orderly.reading reading
  obtain ⟨closing, conversion⟩ := conversionWrites_serials s.store
  have queue : (readGood s).funds.writes = conversionWrites s.store := by
    show s.funds.writes ++ _ = _
    rw [writes, List.nil_append]
  have started : (readGood s).funds.startup ≠ .reading := by
    show (if conversionWrites s.store = [] then Startup.inUse else .converting) ≠ .reading
    split
    · simp
    · simp
  have same : ∀ y, (conversionSerials (readGood s).funds.writes).count y = (readGood s).store.openSerials.count y := fun y => by
    rw [queue]
    exact conversion.count_eq y
  refine imprintsKept_of_empty pieces path (queue ▸ closing) (fun y => (same y).le) (fun _ _ => same) (fun halted => ?_)
    (fun start => absurd start started) fun ⟨nodup, low, _⟩ _ => ⟨nodup, low⟩
  have halted : s.mode = .halted := halted
  rw [setup] at halted
  cases halted

/-- A failed start-up read (R137). -/
theorem keepsImprints_readFailed {s : State} (reading : s.funds.startup = .reading) : KeepsImprints s (readFailed s) := by
  refine keepsImprints_of_kept fun orderly => ?_
  obtain ⟨-, pieces, writes, path⟩ := orderly.reading reading
  have queue : (readFailed s).funds.writes = [] := writes
  refine imprintsKept_of_empty pieces path (by rw [queue]; rfl) (fun y => ?_) (fun runs => absurd rfl runs) (fun _ => queue)
    (fun start => by cases start) fun ⟨nodup, low, _⟩ _ => ⟨nodup, low⟩
  rw [queue]
  exact Nat.zero_le _

/-! ## A restart (R136) -/

/-- The slots hold unlike serials, none above the piece count. -/
def Store.SerialsHeld (st : Store) : Prop :=
  st.openSerials.Nodup ∧ ∀ o ∈ st.occupied, o.serial ≤ st.pc

/-- A store with a slot emptied holds its serials. -/
theorem Vacated.serialsHeld {x : Nat} {before after : Store} (h : Vacated x before after) (held : before.SerialsHeld) :
    after.SerialsHeld :=
  ⟨held.1.sublist h.serials, fun o mem => h.pc ▸ held.2 o (h.occupied o mem)⟩

/-- The serials after a write in progress was cut off whole (R136). -/
theorem serialsHeld_apply {w : StoreWrite} {rest : List StoreWrite} {s : State} (orderly : s.Orderly)
    (queue : s.funds.writes = w :: rest) (serials : s.SerialsSound) (ahead : s.serialAhead) :
    (s.store.apply s.freeCount w).SerialsHeld := by
  have held : s.store.SerialsHeld := ⟨serials.1, serials.2.1⟩
  have kept : isSlotWrite w = false → w.isCommit = false → (s.store.apply s.freeCount w).SerialsHeld := fun slot commit => by
    obtain ⟨open0, open1, pc⟩ := apply_slots slot commit s.freeCount s.store
    unfold Store.SerialsHeld Store.openSerials
    rw [openSerials_of_eq open0 open1, pc]
    exact held
  cases w with
  | commit postage piece job dateCode =>
    obtain ⟨r, -, filled⟩ := committed_of_front orderly queue
    exact filled.serials serials ahead
  | close x => exact (vacated_close x s.store).serialsHeld held
  | spoilSlot x reason => exact (vacated_spoil x reason s.store).serialsHeld held
  | spoilVerdict | spoilUnmatched | credit | drain => exact kept rfl rfl

/-- A power-up, a loss of power and both resets (R136, R174). -/
theorem keepsImprints_restart {s t : State} (restarted : Restarted s t) : KeepsImprints s t := by
  refine keepsImprints_of_kept fun orderly => ?_
  have pieces : t.tracker.pieces = [] := by rw [restarted.tracker]; rfl
  have writes : t.funds.writes = [] := by rw [restarted.funds]; rfl
  have startup : t.funds.startup = .reading := by rw [restarted.funds]; rfl
  refine imprintsKept_of_empty pieces restarted.path (by rw [writes]; rfl) (fun y => by rw [writes]; exact Nat.zero_le _)
    (fun _ read => absurd startup read) (fun _ => writes) (fun _ => ⟨restarted.mode, writes⟩) fun serials ahead => ?_
  have kept : ∀ st : Store, st = s.store → st.SerialsHeld := fun st same => same ▸ ⟨serials.1, serials.2.1⟩
  rcases restarted.store with same | cut
  · exact kept _ same
  · rcases cutStore_cases s with same | ⟨w, rest, queue, applied⟩
    · exact kept _ (cut.trans same)
    · rw [cut, applied]
      exact serialsHeld_apply orderly queue serials ahead

end Sys2Proof.Machine
end

section
/-! The imprints outstanding under the commands that leave them, at the results of the engine, and the bounds they give (R74, R142). -/

set_option Elab.async false

namespace Sys2Proof.Machine

/-! ## Commands that leave the imprints outstanding -/

/-- An answer (R167). -/
theorem calm_answer (v : Verdict) (further : Further) (d : AnswerData) (s : State) : calm s (answer v further d s) :=
  calm_of_same (same_answer v further d s)

/-- Outside SETUP and HALTED the store is in use. -/
theorem State.Orderly.read_of_mode {s : State} (h : s.Orderly) (mode : s.mode ≠ .setup) : s.funds.startup ≠ .reading := fun start => by
  obtain ⟨-, -, -, -, reading⟩ := h.settled
  exact mode (reading start).1

/-- A quiesce condition is held in RUNNING only. -/
theorem State.Orderly.quiesceHeld {s : State} (h : s.Orderly) : s.QuiesceHeld :=
  fun condition => h.modes.running_of_held condition

/-- A notice decided on takes a record that no slot answers for (R33 to R41). -/
theorem calm_decideNotice (n : Notice) (s : State) : calm s (decideNotice n s).1 := by
  have asked : ∀ {u : State} {b : Option Binding}, askBank n.piece s = (u, b) → calm s u := fun {u b} asked => by
    obtain ⟨rates, port, changed, -⟩ := askBank_changes n.piece s
    have changed : u = { s with rates := rates, port := port } := by rw [← changed, asked]
    rw [changed]
    exact calm_of_eq rfl rfl rfl rfl rfl rfl
  have original : ∀ b u, (originalRecord n b u).state.outstanding = false := fun b u => by
    rw [originalRecord_eq]
    dsimp only
    split
    · rfl
    · rfl
  have released : ∀ b reference u, (releasedRecord n b reference u).state.outstanding = false := fun b reference u => by
    unfold releasedRecord
    dsimp only
    split
    · rfl
    · rfl
  have passing : ∀ u, calm u (enterPassing n u) := fun u => calm_of_eq rfl rfl rfl rfl rfl rfl
  unfold decideNotice decideOriginal decideReleased
  repeat' split
  · exact calm_of_eq rfl rfl rfl rfl rfl rfl
  next e => exact calm_trans (asked e) (take_calm _ _ (original _ _))
  next e => exact calm_trans (asked e) (passing _)
  · exact passing s
  · exact calm_refl s
  next e => exact calm_trans (asked e) (take_calm _ _ (released _ _ _))
  next e => exact asked e
  · exact calm_refl s

/-- A report changes no state in COMMITTED or FINISHING (R59, R60). -/
theorem harmless_measureInto (part : MeasurePart) (r : PieceRecord) : harmless (measureInto part) r := by
  unfold harmless measureInto
  split
  next taken _ =>
    refine ⟨rfl, rfl, .inr ⟨?_, by rw [taken]; rfl⟩⟩
    dsimp only
    split
    · rfl
    · rfl
  all_goals exact ⟨rfl, rfl, .inl rfl⟩

/-- So does an address report. -/
theorem harmless_addressInto (part : AddressPart) (r : PieceRecord) : harmless (addressInto part) r := by
  unfold harmless addressInto
  split
  next taken _ =>
    refine ⟨rfl, rfl, .inr ⟨?_, by rw [taken]; rfl⟩⟩
    dsimp only
    split
    · rfl
    · rfl
  all_goals exact ⟨rfl, rfl, .inl rfl⟩

/-- A harmless report. -/
theorem calm_reportTo {change : PieceRecord → PieceRecord} (p : PieceNo) (s : State) (leaves : ∀ r, harmless change r) :
    calm s (reportTo p change s) := by
  unfold reportTo
  split
  · exact calm_refl s
  · exact changeRecord_calm _ _ s fun r _ _ => leaves r

/-- A JOB CLOSE (R32, R47). -/
theorem calm_closeJob {s : State} (orderly : s.Orderly) (n : Nat) : calm s (closeJob n s) := by
  have marked : calm s (markClosed n s) := by
    unfold markClosed
    split
    · exact calm_of_eq rfl rfl rfl rfl rfl rfl
    · exact calm_refl s
  have mode : (markClosed n s).mode = s.mode := by
    unfold markClosed
    split
    · rfl
    · rfl
  unfold closeJob
  split
  next condition =>
    exact calm_trans marked (enterQuiescing_calm _ (mode.trans (orderly.quiesceHeld (by rw [condition]; simp))))
  next => exact marked

/-- A verdict (R159 to R162): a head with a station is configured, so its store has been read. -/
theorem calm_takeVerdict {s : State} (orderly : s.Orderly) (p : PieceNo) (station : Nat) (v : VerifyVerdict) :
    calm s (takeVerdict p station v s) := by
  unfold takeVerdict
  split
  next own =>
    have read : s.funds.startup ≠ .reading := orderly.read_of_mode fun setup => by
      obtain ⟨-, -, -, -, none, -⟩ := orderly.modes.holds
      unfold State.isOwn at own
      rw [none setup] at own
      cases own
    split
    · unfold matchedVerdict
      repeat' split
      · exact setFranked_calm _ _ _ s
      · exact requestVerdict_calm _ _ s read
      · exact calm_refl s
    · unfold unmatchedVerdict
      split
      · exact calm_refl s
      · exact calm_trans (raise_calm _ s) (requestUnmatched_calm p _ read)
  next => exact calm_refl s

/-- The cutoff (R62). -/
theorem calm_cutoffOf {r : PieceRecord} {s : State} (orderly : s.Orderly) (mem : r ∈ s.tracker.pieces) : calm s (cutoffOf r s) := by
  unfold cutoffOf
  split
  next taken =>
    refine changeRecord_calm _ _ s fun q memQ tag => ?_
    rw [orderly.eq_of_tag memQ mem tag]
    exact ⟨rfl, rfl, .inr ⟨rfl, by rw [taken]; rfl⟩⟩
  next => exact calm_refl s

/-- The commit checkpoint (R69 to R71). -/
theorem calm_commitOf {r : PieceRecord} {s : State} (orderly : s.Orderly) (mem : r ∈ s.tracker.pieces) : calm s (commitOf r s) := by
  have missed : ∀ cause, r.state.outstanding = false → calm s (missPiece r cause 0 s) :=
    fun cause free => missPiece_calm r cause 0 s (orderly.free mem free)
  unfold commitOf
  split
  next rated =>
    have free : r.state.outstanding = false := by rw [rated]; rfl
    unfold commitRated
    split
    next takes =>
      refine calm_trans (changeRecord_calm r.tag (fun x => { x with state := .committing }) s fun q memQ tag => ?_)
        (enqueueWrite_calm _ _ rfl ((takesCommit_iff s).mp takes).1 (orderly.read_of_piece mem))
      rw [orderly.eq_of_tag memQ mem tag]
      exact ⟨rfl, rfl, .inr ⟨rfl, free⟩⟩
    next =>
      have lowered : calm s (lowerPledge r.postage s) := calm_of_eq rfl rfl rfl rfl rfl rfl
      refine calm_trans (calm_trans lowered (judgeFunds_calm _ orderly.quiesceHeld)) (missPiece_calm r .pathBusy 0 _ ?_)
      have tracker : (judgeFunds (lowerPledge r.postage s)).tracker = s.tracker := by simp
      rw [tracker]
      exact orderly.free mem free
  next taken => exact missed _ (by rw [taken]; rfl)
  next ready => exact missed _ (by rw [ready]; rfl)
  next rating => exact missed _ (by rw [rating]; rfl)
  all_goals exact calm_refl s

/-- The print checkpoint changes the phase of an entry, and no serial (R149). -/
theorem calm_printOf (r : PieceRecord) (s : State) : calm s (printOf r s) := by
  have struck : ∀ serial, calm s (strike serial s) := fun serial => by
    refine ⟨⟨?_, rfl, rfl, rfl, rfl, rfl, rfl, rfl⟩, Iff.rfl, rfl, .inl rfl, fun _ mode => mode⟩
    show (s.imprint.path.map _).map _ = _
    rw [List.map_map]
    refine List.map_congr_left fun e _ => ?_
    simp only [Function.comp]
    split
    · rfl
    · rfl
  unfold printOf
  repeat' split
  · exact calm_trans (struck _) (sendEngine_calm _ _)
  all_goals exact calm_refl s

/-- The start of a rating (R63). -/
theorem calm_startRating {s : State} (orderly : s.Orderly) : calm s (startRating s) := by
  unfold startRating
  split
  · exact calm_refl s
  · split
    · exact calm_refl s
    next r rest queue =>
      have head : r ∈ s.ratingQueue := queue ▸ List.mem_cons_self
      obtain ⟨mem, ready⟩ := List.mem_filter.mp head
      refine calm_trans (t := { s with engine := some { tag := r.tag, inputs := ratingInputs s r } })
        (calm_of_eq rfl rfl rfl rfl rfl rfl) (changeRecord_calm _ _ _ fun q memQ tag => ?_)
      rw [orderly.eq_of_tag memQ mem tag]
      exact ⟨rfl, rfl, .inr ⟨rfl, by rw [beq_iff_eq.mp ready]; rfl⟩⟩

/-- The result of a rating (R65 to R68). -/
theorem calm_deliverResult {s : State} (orderly : s.Orderly) : calm s (deliverResult s) := by
  unfold deliverResult
  split
  · exact calm_refl s
  next flight _ =>
    have idle : calm s { s with engine := none } := calm_of_eq rfl rfl rfl rfl rfl rfl
    dsimp only
    split
    · exact idle
    next r found =>
      have mem : r ∈ s.tracker.pieces := List.mem_of_find?_eq_some found
      split
      next rating =>
        have free : r.state.outstanding = false := by rw [rating]; rfl
        have faulted : ∀ fault, calm s (applyFault r fault flight.inputs.serviceClass { s with engine := none }) := fun fault => by
          refine calm_trans ?_ (retire_calm _ _ _ _ (orderly.free mem free))
          exact calm_of_eq rfl rfl rfl rfl rfl rfl
        unfold applyResult
        split
        · exact faulted _
        next result flags _ =>
          split
          · exact faulted _
          · have pledged : calm s { s with engine := none, funds := { s.funds with pledged := s.funds.pledged + result.postage } } :=
              calm_of_eq rfl rfl rfl rfl rfl rfl
            refine calm_trans (calm_trans pledged (changeRecord_calm r.tag
              (fun x => { x with rating := some result, flags := x.flags.union flags, state := .rated }) _ fun q memQ tag => ?_))
              (judgeFunds_calm _ orderly.quiesceHeld)
            rw [orderly.eq_of_tag memQ mem tag]
            exact ⟨rfl, rfl, .inr ⟨rfl, free⟩⟩
      next => exact idle

/-! ## Writes, configuration and modes -/

/-- A write of the Verify Unit or of the service port completes (R130, R132, R133, R163). -/
theorem calm_otherWrite {w : StoreWrite} {rest : List StoreWrite} {s u : State} (orderly : s.Orderly)
    (queue : s.funds.writes = w :: rest) (slot : isSlotWrite w = false) (commit : w.isCommit = false)
    (settles : (completeWrite w rest s).funds.startup ≠ .reading → calm (completeWrite w rest s) u)
    (startup : u.funds.startup = s.funds.startup) : calm s (placeNotice u) := by
  obtain ⟨-, read⟩ := orderly.settled.running (by simp [queue])
  exact calm_trans (calm_trans (calm_completeWrite orderly queue slot commit) (settles read)) (calm_placeNotice_of_eq read startup)

/-- CONFIGURE (R170): the store is in use. -/
theorem calm_configure {s : State} (orderly : s.Orderly) (c : Configuration) : calm s (configure c s) := by
  unfold configure
  split
  · exact calm_answer _ _ _ s
  next isSetup =>
    have setup : s.mode = .setup := not_not.mp isSetup
    split
    · exact calm_answer _ _ _ s
    · exact calm_answer _ _ _ s
    · exact calm_answer _ _ _ s
    next inUse =>
      split
      · exact calm_answer _ _ _ s
      · have read : s.funds.startup ≠ .reading := by simp [inUse]
        have stored : calm s { s with mode := .standby, port := { s.port with config := some c } } :=
          ⟨⟨rfl, rfl, rfl, rfl, rfl, rfl, rfl, rfl⟩, by simp [setup], rfl, .inl rfl, fun start => absurd start read⟩
        refine calm_trans (calm_trans stored (judgeFunds_calm _ fun condition => ?_)) (calm_answer _ _ _ _)
        rw [orderly.quiesceHeld condition] at setup
        cases setup

/-- A relay switching for JOIN or LEAVE is that of a configured head (R11, R13). -/
theorem State.ModesHeld.notSetup_of_switching {s : State} (h : s.ModesHeld)
    (switching : s.loop.switching = some .join ∨ s.loop.switching = some .leave) : s.mode ≠ .setup := fun setup => by
  have ring := h.ring
  have attached := h.attached
  unfold LoopPort.AttachSound at ring
  unfold State.ModeAttached at attached
  rw [setup] at attached
  cases attach : s.loop.attach with
  | bypass =>
    rw [attach] at ring
    rcases switching with is | is
    · simp [is] at ring
    · simp [is] at ring
  | joining | attached | leaving =>
    rw [attach] at attached
    simp at attached

/-- A head mode that is neither HALTED before nor after, once the store has been read. -/
theorem calm_of_mode {s t : State} (read : s.funds.startup ≠ .reading) (halted : t.mode = .halted ↔ s.mode = .halted)
    (path : t.imprint.path = s.imprint.path) (pieces : t.tracker.pieces = s.tracker.pieces) (store : t.store = s.store)
    (funds : t.funds = s.funds) : calm s t := by
  refine ⟨⟨by rw [path], by rw [pieces], by rw [pieces], by rw [funds], by rw [funds], by rw [store], by rw [store], by rw [store]⟩,
    halted, by rw [funds], .inl (by rw [funds]), fun start => absurd start read⟩

/-- The join switching period over (R11). -/
theorem calm_joinSwitchComplete {s : State} (orderly : s.Orderly) : calm s (joinSwitchComplete s) := by
  unfold joinSwitchComplete
  split
  next switching =>
    have read := orderly.read_of_mode (orderly.modes.notSetup_of_switching (.inl switching))
    refine calm_trans ?_ (raise_calm _ _)
    unfold beginRunning
    split
    · exact calm_of_eq rfl rfl rfl rfl rfl rfl
    next running => exact calm_of_mode read ⟨fun halted => (by cases halted), fun halted => absurd halted running⟩ rfl rfl rfl rfl
  next => exact calm_refl s

/-- The leave switching period over (R13). -/
theorem calm_leaveSwitchComplete {s : State} (orderly : s.Orderly) : calm s (leaveSwitchComplete s) := by
  unfold leaveSwitchComplete
  split
  next switching =>
    have read := orderly.read_of_mode (orderly.modes.notSetup_of_switching (.inr switching))
    refine calm_trans ?_ (raise_calm _ _)
    refine calm_of_mode read ?_ rfl rfl rfl rfl
    dsimp only
    split
    next halted => exact ⟨fun _ => halted, fun _ => rfl⟩
    next running => exact ⟨fun halted => (by cases halted), fun halted => absurd halted running⟩
  next => exact calm_refl s

/-- QUIESCE (R46 to R48). -/
theorem calm_quiesceHead (q : QuiesceArg) (s : State) : calm s (quiesceHead q s) := by
  have held : ∀ condition, calm s (holdCondition condition s) := fun condition => calm_of_eq rfl rfl rfl rfl rfl rfl
  unfold quiesceHead
  split
  next running =>
    have entered := enterQuiescing_calm s running
    unfold quiesceRunning
    repeat' split
    · exact calm_trans entered (calm_answer _ _ _ _)
    · exact calm_answer _ _ _ s
    · exact calm_trans entered (calm_answer _ _ _ _)
    · exact calm_trans (held _) (calm_answer _ _ _ _)
    · exact calm_trans entered (calm_answer _ _ _ _)
    · exact calm_trans (held _) (calm_answer _ _ _ _)
    · exact calm_answer _ _ _ s
  next => exact calm_answer _ _ _ s

/-- RESUME (R50). -/
theorem calm_resumeHead {s : State} (orderly : s.Orderly) : calm s (resumeHead s) := by
  unfold resumeHead
  split
  next may =>
    have mode : s.mode ≠ .setup ∧ s.mode ≠ .halted := by
      rcases may.1 with is | is | is
      all_goals rw [is]; exact ⟨by simp, by simp⟩
    refine calm_trans ?_ (calm_answer _ _ _ _)
    exact calm_of_mode (orderly.read_of_mode mode.1)
      ⟨fun halted => (by cases halted), fun halted => absurd halted mode.2⟩ rfl rfl rfl rfl
  next => exact calm_answer _ _ _ s

/-- CREDIT and DRAIN_SPOIL put a write in the queue of a configured head (R131, R133). -/
theorem calm_serviceWrite {w : StoreWrite} {s : State} (orderly : s.Orderly) (slot : isSlotWrite w = false)
    (mode : s.mode = .standby ∨ s.mode = .quiet) (v : Verdict) (further : Further) (d : AnswerData) :
    calm s (answer v further d (enqueueWrite w s)) := by
  have working : s.mode ≠ .setup ∧ s.mode ≠ .halted := by
    rcases mode with is | is
    all_goals rw [is]; exact ⟨by simp, by simp⟩
  exact calm_trans (enqueueWrite_calm w s slot working.2 (orderly.read_of_mode working.1)) (calm_answer _ _ _ _)

/-- CREDIT (R131). -/
theorem calm_creditHead {s : State} (orderly : s.Orderly) (amount : Nat) : calm s (creditHead amount s) := by
  unfold creditHead
  cases refusal : creditRefusal amount s with
  | some code => exact calm_answer _ _ _ s
  | none =>
    have mode : s.mode = .standby := by
      unfold creditRefusal at refusal
      split at refusal
      next => cases refusal
      next standby => exact not_not.mp standby
    exact calm_serviceWrite orderly rfl (.inl mode) _ _ _

/-- DRAIN_SPOIL (R133). -/
theorem calm_drainHead {s : State} (orderly : s.Orderly) (sequence : Nat) : calm s (drainHead sequence s) := by
  unfold drainHead
  cases refusal : drainRefusal sequence s with
  | some code => exact calm_answer _ _ _ s
  | none =>
    have mode : s.mode = .standby ∨ s.mode = .quiet := by
      unfold drainRefusal at refusal
      split at refusal
      next => cases refusal
      next mode => exact not_not.mp mode
    exact calm_serviceWrite orderly rfl mode _ _ _

/-- LOAD_BANK_BLOCK (R85, R86). -/
theorem calm_loadBank (slot index : Nat) (part : BankPart) (s : State) : calm s (loadBank slot index part s) := by
  unfold loadBank loadInto
  repeat' split
  all_goals exact calm_of_eq rfl rfl rfl rfl rfl rfl

/-- COMMIT_BANK (R87, R88). -/
theorem calm_commitBank (slot : Nat) (s : State) : calm s (commitBank slot s) := by
  unfold commitBank acceptCommit
  dsimp only
  repeat' split
  all_goals exact calm_of_eq rfl rfl rfl rfl rfl rfl

/-! ## The result deadline and the results of the engine (R150 to R154) -/

/-- The result deadline (R154). -/
theorem keepsImprints_deadlineOf {r : PieceRecord} {s : State} (mem : r ∈ s.tracker.pieces) : KeepsImprints s (deadlineOf r s) := by
  unfold deadlineOf
  split
  next serial committed holds =>
    exact keepsImprints_requestSlotWrite {} mem committed (fun _ => holds) rfl rfl
  all_goals exact keepsImprints_of_calm fun _ => calm_refl s

/-- An imprint settled by a result (R74): its entry names a record in COMMITTED. -/
theorem keepsImprints_settle {e : PathEntry} {w : StoreWrite} {s u : State} (entry : e ∈ s.imprint.path)
    (dropped : PathDropped e.serial s (dropPath e.serial u)) (tracker : u.tracker = s.tracker)
    (closing : closingSerials [w] = [some e.serial]) (conversion : conversionSerials [w] = []) :
    KeepsImprints s (settle e w u) := by
  have asks : s.Orderly → ∃ r ∈ s.tracker.pieces, r.state = .committed ∧ r.serial = some e.serial ∧
      settle e w u = requestSlotWrite r w (dropPath e.serial u) := fun orderly => by
    obtain ⟨⟨-, records⟩, -⟩ := orderly.settled
    obtain ⟨r, mem, tag, committed, serial⟩ := records e entry
    exact ⟨r, mem, committed, serial, settle_eq w orderly.funds.1 mem tag committed tracker⟩
  refine keepsImprints_of_kept fun orderly => ?_
  obtain ⟨r, mem, committed, serial, acts⟩ := asks orderly
  have kept := keepsImprints_requestSlotWrite dropped mem committed (fun _ => serial) closing conversion
  rw [acts]
  exact ⟨kept.settled orderly, kept.serials orderly⟩

/-- An IMPRINT DONE (R150, R151, R153). -/
theorem keepsImprints_resultDone (serial : Nat) (s : State) : KeepsImprints s (resultDone serial s) := by
  unfold resultDone
  split
  · exact keepsImprints_of_calm fun _ => raise_calm _ s
  next e found =>
    have entry : e ∈ s.imprint.path := List.mem_of_find?_eq_some found
    have number : e.serial = serial := by simpa using List.find?_some found
    subst number
    split
    · exact keepsImprints_settle entry {} rfl rfl rfl
    · exact keepsImprints_settle entry {} (by simp) rfl rfl

/-- An IMPRINT FAILED (R152, R153). -/
theorem keepsImprints_resultFailed (serial : Nat) (s : State) : KeepsImprints s (resultFailed serial s) := by
  unfold resultFailed
  split
  · exact keepsImprints_of_calm fun _ => raise_calm _ s
  next e found =>
    have entry : e ∈ s.imprint.path := List.mem_of_find?_eq_some found
    have number : e.serial = serial := by simpa using List.find?_some found
    subst number
    exact keepsImprints_settle entry {} rfl rfl rfl

end Sys2Proof.Machine
end

section
/-! The store, its queue and the imprints outstanding are kept by every step (R120, R126, R138, R142). -/

set_option Elab.async false

namespace Sys2Proof.Machine

/-! ## The bounds -/

/-- The serials of the print path are ones of records in COMMITTED, each of its own. -/
theorem pathSerials_subperm {s : State} (sound : s.PathSound) :
    (s.imprint.path.map fun e => some e.serial).Subperm (serialsIn .committed s.tracker.pieces) := by
  obtain ⟨tags, records⟩ := sound
  have apart : (s.imprint.path.map fun e => (e.tag, some e.serial)).Nodup :=
    List.Nodup.of_map Prod.fst (by rw [List.map_map]; exact tags)
  have stands : (s.imprint.path.map fun e => (e.tag, some e.serial)) ⊆ standing .committed s.tracker.pieces := fun x mem => by
    obtain ⟨e, memE, rfl⟩ := List.mem_map.mp mem
    exact mem_standing.mpr (records e memE)
  obtain ⟨l, perm, sub⟩ := List.Nodup.subperm apart stands
  have pairs : ((s.imprint.path.map fun e => (e.tag, some e.serial)).map Prod.snd).Subperm
      ((standing .committed s.tracker.pieces).map Prod.snd) := ⟨l.map Prod.snd, perm.map _, sub.map _⟩
  simpa [standing, serialsIn, Function.comp_def] using pairs

/-- The slot writes are those of the records and those of the conversion. -/
theorem slotWrites_length (writes : List StoreWrite) :
    (writes.filter isSlotWrite).length = (closingSerials writes).length + (conversionSerials writes).length := by
  induction writes with
  | nil => rfl
  | cons w rest ih =>
    rw [← List.singleton_append, List.filter_append, closingSerials_append, conversionSerials_append, List.length_append,
      List.length_append, List.length_append, ih]
    have one : ([w].filter isSlotWrite).length = (closingSerials [w]).length + (conversionSerials [w]).length := by
      cases w with
      | spoilSlot x reason =>
        by_cases conversion : reason = .unconfirmed
        · subst conversion
          rfl
        · show 1 = _
          simp [closingSerials, conversionSerials, conversion]
      | _ => rfl
    omega

/-- A store has two slots. -/
theorem openSerials_length (st : Store) : st.openSerials.length ≤ 2 := by
  have first := Option.length_toList_le (o := st.open0)
  have second := Option.length_toList_le (o := st.open1)
  rw [Store.openSerials, List.length_map, Store.occupied, List.length_append]
  omega

/-- The print path and the queue are short, and no two entries share a serial. -/
theorem State.Settled.bounds {s : State} (h : s.Settled) (sound : s.StoreSound) : s.imprint.path.length ≤ 2 ∧
    s.funds.writes.length ≤ 8 ∧ (s.SerialsSound → (s.imprint.path.map PathEntry.serial).Nodup) := by
  obtain ⟨path, ⟨answers, -⟩, closing, -, -⟩ := h
  have entries := pathSerials_subperm path
  have slots := openSerials_length s.store
  have parts : s.answered.length = (serialsIn .committed s.tracker.pieces).length + (serialsIn .finishing s.tracker.pieces).length +
      (conversionSerials s.funds.writes).length := by
    unfold State.answered
    rw [List.length_append, List.length_append]
  have held := answers.length_le
  have short := entries.length_le
  rw [List.length_map] at short
  have others := ((storeSound_iff s).mp sound).places
  have slotWrites := slotWrites_length s.funds.writes
  have split := List.length_eq_length_filter_add (l := s.funds.writes) isSlotWrite
  have finishing := closing.length_eq
  refine ⟨by omega, by omega, fun serials => ?_⟩
  have committed : (serialsIn .committed s.tracker.pieces).Subperm s.answered := by
    unfold State.answered
    rw [List.append_assoc]
    exact (List.sublist_append_left _ _).subperm
  obtain ⟨l, perm, sub⟩ := (entries.trans committed).trans answers
  have apart : (s.imprint.path.map fun e => some e.serial).Nodup := perm.nodup_iff.mp (serials.1.sublist sub)
  exact List.Nodup.of_map some (by rw [List.map_map]; exact apart)

/-! ## Every operation -/

/-- Every operation on the tables keeps the imprints outstanding. -/
theorem tableOps_keepsImprints : TableOps KeepsImprints where
  before same kept := kept.before same
  after kept same := kept.after fun _ => calm_of_same same
  same s := keepsImprints_of_calm fun _ => calm_refl s
  notice n s := keepsImprints_of_calm fun _ => calm_decideNotice n s
  measure p part s := keepsImprints_of_calm fun _ => calm_reportTo p s (harmless_measureInto part)
  address p part s := keepsImprints_of_calm fun _ => calm_reportTo p s (harmless_addressInto part)
  jobClose n _ := keepsImprints_of_calm fun orderly => calm_closeJob orderly n
  verdict p station v _ := keepsImprints_of_calm fun orderly => calm_takeVerdict orderly p station v
  cutoff _ _ mem := keepsImprints_of_calm fun orderly => calm_cutoffOf orderly mem
  commit _ _ mem := keepsImprints_of_calm fun orderly => calm_commitOf orderly mem
  print r s _ := keepsImprints_of_calm fun _ => calm_printOf r s
  deadline _ _ mem := keepsImprints_deadlineOf mem
  start _ := keepsImprints_of_calm calm_startRating
  deliver _ := keepsImprints_of_calm calm_deliverResult
  commitWrite _ _ _ _ _ _ queue := keepsImprints_commitComplete queue
  closeWrite _ _ _ queue := keepsImprints_closeComplete queue
  spoilSlotWrite _ _ _ _ queue := keepsImprints_spoilSlotComplete queue
  spoilVerdictWrite _ _ _ _ _ _ _ queue := keepsImprints_of_calm fun orderly => calm_otherWrite orderly queue rfl rfl
    (fun _ => calm_trans (judgeSpoils_calm _ _) (setFranked_calm _ _ _ _)) (by simp [completeWrite])
  spoilUnmatchedWrite _ _ _ queue := keepsImprints_of_calm fun orderly => calm_otherWrite orderly queue rfl rfl
    (fun _ => judgeSpoils_calm _ _) (by simp [completeWrite])
  creditWrite _ _ _ queue := keepsImprints_of_calm fun orderly => calm_otherWrite orderly queue rfl rfl
    (fun _ => judgeFunds_calm _ orderly.quiesceHeld) (by simp [completeWrite])
  drainWrite _ _ _ queue := keepsImprints_of_calm fun orderly => calm_otherWrite orderly queue rfl rfl
    (fun _ => judgeSpoils_calm _ _) (by simp [completeWrite])
  failure := keepsImprints_failStore
  readGood _ reading := keepsImprints_readGood reading
  readFailed _ reading := keepsImprints_readFailed reading
  done := keepsImprints_resultDone
  failed := keepsImprints_resultFailed
  load slot index part s := keepsImprints_of_calm fun _ => calm_loadBank slot index part s
  bank slot s := keepsImprints_of_calm fun _ => calm_commitBank slot s
  configure c _ := keepsImprints_of_calm fun orderly => calm_configure orderly c
  relay _ _ _ := keepsImprints_of_calm fun _ => calm_of_eq rfl rfl rfl rfl rfl rfl
  joined _ := keepsImprints_of_calm calm_joinSwitchComplete
  left _ := keepsImprints_of_calm calm_leaveSwitchComplete
  quiesce q s := keepsImprints_of_calm fun _ => calm_quiesceHead q s
  resume _ := keepsImprints_of_calm calm_resumeHead
  credit amount _ := keepsImprints_of_calm fun orderly => calm_creditHead orderly amount
  drain sequence _ := keepsImprints_of_calm fun orderly => calm_drainHead orderly sequence
  restart := keepsImprints_restart

/-- A step keeps the imprints outstanding. -/
theorem keepsImprints_step {s t : State} (done : step s = .next t) : KeepsImprints s t := by
  have stays : KeepsImprints s s := keepsImprints_of_calm fun _ => calm_refl s
  rcases step_next done with rfl | ⟨c, rest, -, ran⟩
  · exact stays
  · exact KeepsImprints.before (t := { s with pending := rest }) {}
      (exec_relates (fun u => tableOps_keepsImprints.same u) (fun u => tableOps_keepsImprints.effect c u) ran)

/-- Settles O8: the store is kept operation by operation, the imprints outstanding with the records and the slots counted by serial,
and the bounds follow from the count. -/
theorem storeKept : Obligations.StoreKept := by
  unfold Obligations.StoreKept
  refine ⟨fun s t => step_keeps (P := State.StoreSound) (fun _ _ h => h) fun c s => tableOps_storeSound.effect c s,
    fun s t funds store bounded settled done => ?_, fun s store settled => settled.bounds store⟩
  have orderly : s.Orderly := ⟨funds, store, ((tableBounded_iff s).mp bounded).1, settled⟩
  have kept := keepsImprints_step done
  exact ⟨kept.settled orderly, kept.serials orderly⟩

end Sys2Proof.Machine
end
